-- ==== Sys2Proof/Word.lean ====
section
/-!
DEFINITION. Sys2Proof/Word.lean: the widths of the block (REGW = 16, CNTW = 32, spec rule R3), its four channels,
its five event kinds, and the two small containers indexed by them.
-/

namespace Sys2Proof

/-- The contents of one hardware register: REGW = 16 bits (R3). -/
abbrev Reg16 := BitVec 16

/-- A 32-bit quantity: DATA, RDATA, counter, preload, comparator, token (R3, R80). -/
abbrev Word := BitVec 32

/-- The four channels "indices 0-3, 'A'..'D'" (R3). -/
inductive Chan where
  | chA | chB | chC | chD
  deriving DecidableEq, Repr

/-- The four channels in the order 0, 1, 2, 3, in which every rule that loops over them visits them (R242). -/
def Chan.all : List Chan := [.chA, .chB, .chC, .chD]

/-- The five event kinds, in the order of R23: ready, comparator, carry/borrow, line-break, external-edge. -/
inductive Kind where
  | ready | comparator | carryBorrow | lineBreak | externalEdge
  deriving DecidableEq, Repr

/-- The five kinds in the order 0..4, in which the handler visits them (R240, R242). -/
def Kind.all : List Kind := [.ready, .comparator, .carryBorrow, .lineBreak, .externalEdge]

/-- The number of an event kind, its bit in a five-bit status value (R23). -/
def Kind.index : Kind → Nat
  | .ready => 0 | .comparator => 1 | .carryBorrow => 2 | .lineBreak => 3 | .externalEdge => 4

/-- One value for each of the four channels: the `x[c]`, c in 0..3, of the spec. -/
structure Quad (α : Type) where
  a : α
  b : α
  c : α
  d : α
  deriving DecidableEq, Repr

/-- The value of channel `c`. -/
def Quad.get {α : Type} (q : Quad α) : Chan → α
  | .chA => q.a | .chB => q.b | .chC => q.c | .chD => q.d

/-- The value of channel `c` replaced by `x`, the other three kept. -/
def Quad.set {α : Type} (q : Quad α) (c : Chan) (x : α) : Quad α :=
  match c with
  | .chA => { q with a := x }
  | .chB => { q with b := x }
  | .chC => { q with c := x }
  | .chD => { q with d := x }

/-- The same value for all four channels. -/
def Quad.fill {α : Type} (x : α) : Quad α := { a := x, b := x, c := x, d := x }

/-- The five notification slots of a channel, each empty or holding a 32-bit token (R32). -/
structure Slots where
  ready : Option Word
  comparator : Option Word
  carryBorrow : Option Word
  lineBreak : Option Word
  externalEdge : Option Word
  deriving DecidableEq, Repr

/-- `sig[k]`. -/
def Slots.get (s : Slots) : Kind → Option Word
  | .ready => s.ready
  | .comparator => s.comparator
  | .carryBorrow => s.carryBorrow
  | .lineBreak => s.lineBreak
  | .externalEdge => s.externalEdge

/-- `sig[k] <- o`. -/
def Slots.set (s : Slots) (k : Kind) (o : Option Word) : Slots :=
  match k with
  | .ready => { s with ready := o }
  | .comparator => { s with comparator := o }
  | .carryBorrow => { s with carryBorrow := o }
  | .lineBreak => { s with lineBreak := o }
  | .externalEdge => { s with externalEdge := o }

/-- All five slots empty (R46, R206 i1). -/
def Slots.empty : Slots :=
  { ready := none, comparator := none, carryBorrow := none, lineBreak := none, externalEdge := none }

end Sys2Proof
end

