-- ==== Sys2Proof/Syntax.lean ====
section
/-!
DEFINITION. Sys2Proof/Syntax.lean: the instructions of the block, "one host command" each (spec rule R1): one
constructor for each of the 52 rows of spec/opcode_table.json (R84). A command's CH field is `c`, its KIND field is
`kind` (three bits as encoded: 5..7 are answered InvalidParameter by the meaning, R137, R138), its DATA operand is
`data`, whole (R87); a command that ignores DATA has no operand (R80).
-/

namespace Sys2Proof

/-- One host command (R80, R84). -/
inductive Instr where
  /-- SET.MODE (R101). -/
  | setMode (c : Chan) (data : Word)
  /-- GET.MODE (R184). -/
  | getMode (c : Chan)
  /-- SET.LOAD (R102). -/
  | setLoad (c : Chan) (data : Word)
  /-- GET.LOAD (R185). -/
  | getLoad (c : Chan)
  /-- SET.CLEAR (R103). -/
  | setClear (c : Chan) (data : Word)
  /-- GET.CLEAR (R186). -/
  | getClear (c : Chan)
  /-- SET.STORE (R104). -/
  | setStore (c : Chan) (data : Word)
  /-- GET.STORE (R187). -/
  | getStore (c : Chan)
  /-- SET.TSTART (R106). -/
  | setTstart (c : Chan) (data : Word)
  /-- GET.TSTART (R188). -/
  | getTstart (c : Chan)
  /-- SET.COMPA (R107). -/
  | setCompa (c : Chan) (data : Word)
  /-- GET.COMPA (R189). -/
  | getCompa (c : Chan)
  /-- SET.COMPB (R108). -/
  | setCompb (c : Chan) (data : Word)
  /-- GET.COMPB (R190). -/
  | getCompb (c : Chan)
  /-- SET.READMODE (R112). -/
  | setReadmode (c : Chan) (data : Word)
  /-- GET.READMODE (R191). -/
  | getReadmode (c : Chan)
  /-- SET.READTOUT (R113). -/
  | setReadtout (c : Chan) (data : Word)
  /-- GET.READTOUT (R192). -/
  | getReadtout (c : Chan)
  /-- SET.WRITEMODE (R114). -/
  | setWritemode (c : Chan) (data : Word)
  /-- GET.WRITEMODE (R193). -/
  | getWritemode (c : Chan)
  /-- FREQSTART (R109). -/
  | freqstart (c : Chan)
  /-- SET.IRQEN (R130). -/
  | setIrqen (c : Chan) (data : Word)
  /-- GET.IRQEN (R194). -/
  | getIrqen (c : Chan)
  /-- SET.COMPIRQ (R131). -/
  | setCompirq (c : Chan) (data : Word)
  /-- GET.COMPIRQ (R195). -/
  | getCompirq (c : Chan)
  /-- SET.CBIRQ (R132). -/
  | setCbirq (c : Chan) (data : Word)
  /-- GET.CBIRQ (R196). -/
  | getCbirq (c : Chan)
  /-- SET.LBIRQ (R133). -/
  | setLbirq (c : Chan) (data : Word)
  /-- GET.LBIRQ (R197). -/
  | getLbirq (c : Chan)
  /-- SET.XIRQ (R134). -/
  | setXirq (c : Chan) (data : Word)
  /-- GET.XIRQ (R198). -/
  | getXirq (c : Chan)
  /-- CLR.IRQSTAT (R136). -/
  | clrIrqstat (c : Chan) (data : Word)
  /-- GET.IRQSTAT (R135). -/
  | getIrqstat (c : Chan)
  /-- SIGINST (R137). -/
  | siginst (c : Chan) (kind : BitVec 3) (data : Word)
  /-- SIGREM (R138). -/
  | sigrem (c : Chan) (kind : BitVec 3)
  /-- SET.PTOFS (R161). -/
  | setPtofs (data : Word)
  /-- GET.PTOFS (R199). -/
  | getPtofs
  /-- SET.PTEN (R162). -/
  | setPten (data : Word)
  /-- GET.PTEN (R200). -/
  | getPten
  /-- SET.OUTMODE (R180). -/
  | setOutmode (data : Word)
  /-- GET.OUTMODE (R201). -/
  | getOutmode
  /-- SET.OUTSET (R181). -/
  | setOutset (data : Word)
  /-- GET.OUTSET (R202). -/
  | getOutset
  /-- SET.SELFTEST (R182). -/
  | setSelftest (data : Word)
  /-- GET.SELFTEST (R208). -/
  | getSelftest
  /-- GET.IRQCNT (R139). -/
  | getIrqcnt
  /-- WRITE (R110). -/
  | write (c : Chan) (data : Word)
  /-- READ (R111). -/
  | read (c : Chan)
  /-- BLKWRITE (R204). -/
  | blkwrite (c : Chan)
  /-- BLKREAD (R203). -/
  | blkread (c : Chan)
  /-- INIT (R206). -/
  | init
  /-- EXIT (R207). -/
  | exit
  deriving DecidableEq, Repr

end Sys2Proof
end

