-- ==== Sys2Proof/WellFormed.lean ====
section
/-!
DEFINITION. Sys2Proof/WellFormed.lean: which commands carry an operand of the type and range spec rules R87 and R221
give it. Every term of `Instr` has an encoding and a meaning; a command that is not well-formed here is the one that
checks (4) and (5) of R85 answer with InvalidParameter.
-/

namespace Sys2Proof

/-- A mode operand: "enum(10) with the extra exclusion of 8" (R87), {0..7, 9, 10}. -/
def modeInRange (d : Word) : Bool := d.toNat ≤ 10 && d.toNat != 8

/-- An operand of type enum(n), bool (n = 1), u4 (n = 15), mask5 (n = 0x1F) or u16 (n = 0xFFFF): DATA <= n (R87). -/
def atMost (n : Nat) (d : Word) : Bool := d.toNat ≤ n

/-- The operand of the command is in the range R221 gives it. -/
def Instr.wellFormed : Instr → Bool
  | .setMode _ d => modeInRange d
  | .setLoad _ d | .setClear _ d => atMost 3 d
  | .setStore _ d => atMost 2 d
  | .setTstart _ d => atMost 1 d
  | .setReadmode _ d => atMost 2 d
  | .setWritemode _ d => atMost 1 d
  | .setIrqen _ d | .setLbirq _ d | .setXirq _ d => atMost 1 d
  | .setCompirq _ d => atMost 5 d
  | .setCbirq _ d => atMost 3 d
  | .clrIrqstat _ d => atMost 0x1F d
  | .siginst _ k _ | .sigrem _ k => k.toNat ≤ 4
  | .setPten d => atMost 1 d
  | .setOutset d => atMost 15 d
  | .setSelftest d => atMost 0xFFFF d
  | .setCompa _ _ | .setCompb _ _ | .setReadtout _ _ | .write _ _ | .setPtofs _ | .setOutmode _ => true
  | .getMode _ | .getLoad _ | .getClear _ | .getStore _ | .getTstart _ | .getCompa _ | .getCompb _
  | .getReadmode _ | .getReadtout _ | .getWritemode _ | .getIrqen _ | .getCompirq _ | .getCbirq _ | .getLbirq _
  | .getXirq _ | .getIrqstat _ | .getPtofs | .getPten | .getOutmode | .getOutset | .getSelftest | .getIrqcnt => true
  | .freqstart _ | .read _ | .blkwrite _ | .blkread _ | .init | .exit => true

end Sys2Proof
end

