-- ==== Sys2Proof/Decode.lean ====
section
/-!
DEFINITION. Sys2Proof/Decode.lean: the decoder of a command word and its operand (spec rules R80 to R87), total on
all 65536 command words, and the encoder.
-/

namespace Sys2Proof

/-- Why a command word is no command (R85 step 1, R86). The block answers each with UnsupportedOperation. -/
inductive DecodeError where
  /-- The ZERO field, bits 2:0, is not 0. -/
  | zeroField
  /-- DIR and ITEM, bits 15:8, are the opcode of no command. -/
  | unknownOpcode
  /-- A format C command whose KIND is not 0, or a format G command whose CH or KIND is not 0. -/
  | mustBeZero
  deriving DecidableEq, Repr

/-- The channel a CH field names (R81): all four values are channels. -/
def chanOfField (ch : BitVec 2) : Chan :=
  match ch.toNat with
  | 0 => .chA
  | 1 => .chB
  | 2 => .chC
  | _ => .chD

/-- The CH field of a channel. -/
def chanField : Chan → BitVec 2
  | .chA => 0
  | .chB => 1
  | .chC => 2
  | .chD => 3

/-- What an opcode stands for: its format (R82) and how the command is built from CH, KIND and DATA. -/
inductive Row where
  /-- Format G: CH, KIND and ZERO must all be 0. -/
  | global (build : Word → Instr)
  /-- Format C: CH is the channel, KIND must be 0. -/
  | channel (build : Chan → Word → Instr)
  /-- Format S: CH is the channel, KIND the event kind. -/
  | slot (build : Chan → BitVec 3 → Word → Instr)

/-- The opcode map of R84, by `CW[15:8] = DIR, ITEM`. -/
def opcodeRow (opcode : Nat) : Option Row :=
  match opcode with
  | 0x01 => some (.channel fun c d => .setMode c d)
  | 0x02 => some (.channel fun c d => .setLoad c d)
  | 0x03 => some (.channel fun c d => .setClear c d)
  | 0x04 => some (.channel fun c d => .setStore c d)
  | 0x05 => some (.channel fun c d => .setTstart c d)
  | 0x06 => some (.channel fun c d => .setCompa c d)
  | 0x07 => some (.channel fun c d => .setCompb c d)
  | 0x08 => some (.channel fun c d => .setReadmode c d)
  | 0x09 => some (.channel fun c d => .setReadtout c d)
  | 0x0A => some (.channel fun c d => .setWritemode c d)
  | 0x0B => some (.channel fun c _ => .freqstart c)
  | 0x10 => some (.channel fun c d => .setIrqen c d)
  | 0x11 => some (.channel fun c d => .setCompirq c d)
  | 0x12 => some (.channel fun c d => .setCbirq c d)
  | 0x13 => some (.channel fun c d => .setLbirq c d)
  | 0x14 => some (.channel fun c d => .setXirq c d)
  | 0x15 => some (.channel fun c d => .clrIrqstat c d)
  | 0x18 => some (.slot fun c k d => .siginst c k d)
  | 0x19 => some (.slot fun c k _ => .sigrem c k)
  | 0x20 => some (.global fun d => .setPtofs d)
  | 0x21 => some (.global fun d => .setPten d)
  | 0x22 => some (.global fun d => .setOutmode d)
  | 0x23 => some (.global fun d => .setOutset d)
  | 0x24 => some (.global fun d => .setSelftest d)
  | 0x40 => some (.channel fun c d => .write c d)
  | 0x41 => some (.channel fun c _ => .blkwrite c)
  | 0x7E => some (.global fun _ => .init)
  | 0x7F => some (.global fun _ => .exit)
  | 0x81 => some (.channel fun c _ => .getMode c)
  | 0x82 => some (.channel fun c _ => .getLoad c)
  | 0x83 => some (.channel fun c _ => .getClear c)
  | 0x84 => some (.channel fun c _ => .getStore c)
  | 0x85 => some (.channel fun c _ => .getTstart c)
  | 0x86 => some (.channel fun c _ => .getCompa c)
  | 0x87 => some (.channel fun c _ => .getCompb c)
  | 0x88 => some (.channel fun c _ => .getReadmode c)
  | 0x89 => some (.channel fun c _ => .getReadtout c)
  | 0x8A => some (.channel fun c _ => .getWritemode c)
  | 0x90 => some (.channel fun c _ => .getIrqen c)
  | 0x91 => some (.channel fun c _ => .getCompirq c)
  | 0x92 => some (.channel fun c _ => .getCbirq c)
  | 0x93 => some (.channel fun c _ => .getLbirq c)
  | 0x94 => some (.channel fun c _ => .getXirq c)
  | 0x95 => some (.channel fun c _ => .getIrqstat c)
  | 0xA0 => some (.global fun _ => .getPtofs)
  | 0xA1 => some (.global fun _ => .getPten)
  | 0xA2 => some (.global fun _ => .getOutmode)
  | 0xA3 => some (.global fun _ => .getOutset)
  | 0xA4 => some (.global fun _ => .getSelftest)
  | 0xA5 => some (.global fun _ => .getIrqcnt)
  | 0xC0 => some (.channel fun c _ => .read c)
  | 0xC1 => some (.channel fun c _ => .blkread c)
  | _ => none

/-- Decode a command (CW, DATA): step (1) of R85. The fields are those of R81. -/
def decode (cw : BitVec 16) (data : Word) : Except DecodeError Instr :=
  let ch := cw.extractLsb' 6 2
  let kind := cw.extractLsb' 3 3
  if cw.extractLsb' 0 3 != 0#3 then .error .zeroField
  else
    match opcodeRow (cw.extractLsb' 8 8).toNat with
    | none => .error .unknownOpcode
    | some (.global build) => if ch != 0#2 || kind != 0#3 then .error .mustBeZero else .ok (build data)
    | some (.channel build) => if kind != 0#3 then .error .mustBeZero else .ok (build (chanOfField ch) data)
    | some (.slot build) => .ok (build (chanOfField ch) kind data)

/-- The command word with an opcode, CH and KIND, and ZERO = 0 (R81). -/
def commandWord (opcode : BitVec 8) (ch : BitVec 2) (kind : BitVec 3) : BitVec 16 :=
  opcode ++ ch ++ kind ++ 0#3

/-- A format G command word (R82). -/
def wordG (opcode : BitVec 8) : BitVec 16 := commandWord opcode 0 0

/-- A format C command word (R82). -/
def wordC (opcode : BitVec 8) (c : Chan) : BitVec 16 := commandWord opcode (chanField c) 0

/-- A format S command word (R82). -/
def wordS (opcode : BitVec 8) (c : Chan) (kind : BitVec 3) : BitVec 16 := commandWord opcode (chanField c) kind

/-- The command word and operand of a command: "CW base", `ch << 6`, `kind << 3` (R84); "a command that ignores DATA
is assembled with DATA = 0" (R90). -/
def encode : Instr → BitVec 16 × Word
  | .setMode c d => (wordC 0x01 c, d)
  | .setLoad c d => (wordC 0x02 c, d)
  | .setClear c d => (wordC 0x03 c, d)
  | .setStore c d => (wordC 0x04 c, d)
  | .setTstart c d => (wordC 0x05 c, d)
  | .setCompa c d => (wordC 0x06 c, d)
  | .setCompb c d => (wordC 0x07 c, d)
  | .setReadmode c d => (wordC 0x08 c, d)
  | .setReadtout c d => (wordC 0x09 c, d)
  | .setWritemode c d => (wordC 0x0A c, d)
  | .freqstart c => (wordC 0x0B c, 0)
  | .setIrqen c d => (wordC 0x10 c, d)
  | .setCompirq c d => (wordC 0x11 c, d)
  | .setCbirq c d => (wordC 0x12 c, d)
  | .setLbirq c d => (wordC 0x13 c, d)
  | .setXirq c d => (wordC 0x14 c, d)
  | .clrIrqstat c d => (wordC 0x15 c, d)
  | .siginst c k d => (wordS 0x18 c k, d)
  | .sigrem c k => (wordS 0x19 c k, 0)
  | .setPtofs d => (wordG 0x20, d)
  | .setPten d => (wordG 0x21, d)
  | .setOutmode d => (wordG 0x22, d)
  | .setOutset d => (wordG 0x23, d)
  | .setSelftest d => (wordG 0x24, d)
  | .write c d => (wordC 0x40 c, d)
  | .blkwrite c => (wordC 0x41 c, 0)
  | .init => (wordG 0x7E, 0)
  | .exit => (wordG 0x7F, 0)
  | .getMode c => (wordC 0x81 c, 0)
  | .getLoad c => (wordC 0x82 c, 0)
  | .getClear c => (wordC 0x83 c, 0)
  | .getStore c => (wordC 0x84 c, 0)
  | .getTstart c => (wordC 0x85 c, 0)
  | .getCompa c => (wordC 0x86 c, 0)
  | .getCompb c => (wordC 0x87 c, 0)
  | .getReadmode c => (wordC 0x88 c, 0)
  | .getReadtout c => (wordC 0x89 c, 0)
  | .getWritemode c => (wordC 0x8A c, 0)
  | .getIrqen c => (wordC 0x90 c, 0)
  | .getCompirq c => (wordC 0x91 c, 0)
  | .getCbirq c => (wordC 0x92 c, 0)
  | .getLbirq c => (wordC 0x93 c, 0)
  | .getXirq c => (wordC 0x94 c, 0)
  | .getIrqstat c => (wordC 0x95 c, 0)
  | .getPtofs => (wordG 0xA0, 0)
  | .getPten => (wordG 0xA1, 0)
  | .getOutmode => (wordG 0xA2, 0)
  | .getOutset => (wordG 0xA3, 0)
  | .getSelftest => (wordG 0xA4, 0)
  | .getIrqcnt => (wordG 0xA5, 0)
  | .read c => (wordC 0xC0 c, 0)
  | .blkread c => (wordC 0xC1 c, 0)

/-- The first word, CW, of an instruction of `nbits` bits `w`: bit 0 is the least significant bit of CW. -/
def tableCw (nbits w : Nat) : BitVec 16 := BitVec.ofNat 16 (w % 2 ^ nbits)

/-- The operand DATA that follows CW: bits 47:16 of the instruction (log 11); zero above `nbits`. -/
def tableData (nbits w : Nat) : Word := BitVec.ofNat 32 (w % 2 ^ nbits / 2 ^ 16)

/-- The instruction the decoder reads from an instruction whose bits are `w`, numbered as spec/opcode_table.json
numbers them; the table gives a row the 16 bits of CW, and DATA above them is 0. -/
def decodeTableWord (nbits w : Nat) : Option Instr :=
  match decode (tableCw nbits w) (tableData nbits w) with
  | .ok i => some i
  | .error _ => none

end Sys2Proof
end

