-- ==== Sys2Proof/Config.lean ====
section
/-!
DEFINITION. Sys2Proof/Config.lean: the open parameters of spec rule R4, each with its well-formedness condition and,
where the spec gives one, its default; and the free values the spec leaves to `draw` or gives no default for.
-/

namespace Sys2Proof

/-- The 46 hardware registers of R11: ten for each channel, six global. -/
inductive Reg where
  | cntctl (c : Chan) | cmpaLo (c : Chan) | cmpaHi (c : Chan) | cmpbLo (c : Chan) | cmpbHi (c : Chan)
  | preLo (c : Chan) | preHi (c : Chan) | intctl (c : Chan) | cntLo (c : Chan) | cntHi (c : Chan)
  | pend0 | pend1 | outctl0 | outctl1 | outcfg | selftest
  deriving DecidableEq, Repr

/-- The ten registers of one channel, in the order of R11. -/
def Reg.ofChan (c : Chan) : List Reg :=
  [.cntctl c, .cmpaLo c, .cmpaHi c, .cmpbLo c, .cmpbHi c, .preLo c, .preHi c, .intctl c, .cntLo c, .cntHi c]

/-- All 46 registers (R11). -/
def Reg.all : List Reg :=
  Reg.ofChan .chA ++ (Reg.ofChan .chB ++ (Reg.ofChan .chC ++ (Reg.ofChan .chD ++
    [.pend0, .pend1, .outctl0, .outctl1, .outcfg, .selftest])))

/-- The byte offsets of the ten registers of one channel. -/
structure ChanMap where
  cntctl : Nat
  cmpaLo : Nat
  cmpaHi : Nat
  cmpbLo : Nat
  cmpbHi : Nat
  preLo : Nat
  preHi : Nat
  intctl : Nat
  cntLo : Nat
  cntHi : Nat
  deriving DecidableEq, Repr

/-- REGMAP: the byte offset of each of the 46 registers (R4, R53). -/
structure RegMap where
  chans : Quad ChanMap
  pend0 : Nat
  pend1 : Nat
  outctl0 : Nat
  outctl1 : Nat
  outcfg : Nat
  selftest : Nat
  deriving DecidableEq, Repr

/-- `A_NAME(c)` or `A_NAME`: the byte offset of a named register under REGMAP (R6, R52). -/
def RegMap.offset (m : RegMap) : Reg → Nat
  | .cntctl c => (m.chans.get c).cntctl
  | .cmpaLo c => (m.chans.get c).cmpaLo
  | .cmpaHi c => (m.chans.get c).cmpaHi
  | .cmpbLo c => (m.chans.get c).cmpbLo
  | .cmpbHi c => (m.chans.get c).cmpbHi
  | .preLo c => (m.chans.get c).preLo
  | .preHi c => (m.chans.get c).preHi
  | .intctl c => (m.chans.get c).intctl
  | .cntLo c => (m.chans.get c).cntLo
  | .cntHi c => (m.chans.get c).cntHi
  | .pend0 => m.pend0
  | .pend1 => m.pend1
  | .outctl0 => m.outctl0
  | .outctl1 => m.outctl1
  | .outcfg => m.outcfg
  | .selftest => m.selftest

/-- The register at a byte offset, if REGMAP gives the offset one (R51, R55). -/
def RegMap.regAt (m : RegMap) (addr : Nat) : Option Reg :=
  Reg.all.find? (fun r => m.offset r == addr)

/-- Well-formedness of a REGMAP instance: "an injective function from the 46 register names to even byte offsets"
(R53). -/
abbrev RegMap.Wf (m : RegMap) : Prop :=
  (Reg.all.map m.offset).Nodup ∧ ∀ r ∈ Reg.all, m.offset r % 2 = 0

/-- The default channel block of R52 at base `b`. -/
def ChanMap.default (b : Nat) : ChanMap :=
  { cntctl := b, cmpaLo := b + 0x02, cmpaHi := b + 0x04, cmpbLo := b + 0x06, cmpbHi := b + 0x08,
    preLo := b + 0x0A, preHi := b + 0x0C, intctl := b + 0x0E, cntLo := b + 0x10, cntHi := b + 0x12 }

/-- REGMAP, default instance (R52). -/
def RegMap.default : RegMap :=
  { chans := { a := .default 0x00, b := .default 0x20, c := .default 0x40, d := .default 0x60 },
    pend0 := 0x80, pend1 := 0x82, outctl0 := 0x84, outctl1 := 0x86, outcfg := 0x88, selftest := 0x8A }

/-- A field of a 16-bit register: the number of its lowest bit and its width. -/
structure Field where
  pos : Nat
  width : Nat
  deriving DecidableEq, Repr

/-- A field lies inside bits 15:0. -/
abbrev Field.Fits (f : Field) : Prop := f.pos + f.width ≤ 16

/-- Two fields share no bit. -/
abbrev Field.Disjoint (f g : Field) : Prop := f.pos + f.width ≤ g.pos ∨ g.pos + g.width ≤ f.pos

/-- CCTL_LAYOUT: the lowest bit of each of the six fields of the count-control word (R20). -/
structure CctlLayout where
  mode : Nat
  load : Nat
  clr : Nat
  sto : Nat
  tstart : Nat
  tb : Nat
  deriving DecidableEq, Repr

/-- The six fields with the widths R20 fixes: MODE 4, LOAD 2, CLR 2, STO 2, TSTART 1, TB 1. -/
def CctlLayout.fMode (l : CctlLayout) : Field := { pos := l.mode, width := 4 }
@[inherit_doc CctlLayout.fMode] def CctlLayout.fLoad (l : CctlLayout) : Field := { pos := l.load, width := 2 }
@[inherit_doc CctlLayout.fMode] def CctlLayout.fClr (l : CctlLayout) : Field := { pos := l.clr, width := 2 }
@[inherit_doc CctlLayout.fMode] def CctlLayout.fSto (l : CctlLayout) : Field := { pos := l.sto, width := 2 }
@[inherit_doc CctlLayout.fMode] def CctlLayout.fTstart (l : CctlLayout) : Field := { pos := l.tstart, width := 1 }
@[inherit_doc CctlLayout.fMode] def CctlLayout.fTb (l : CctlLayout) : Field := { pos := l.tb, width := 1 }

/-- The six fields of the count-control word. -/
def CctlLayout.fields (l : CctlLayout) : List Field :=
  [l.fMode, l.fLoad, l.fClr, l.fSto, l.fTstart, l.fTb]

/-- Well-formedness of a CCTL_LAYOUT instance: the six fields lie inside bits 15:0 and do not overlap (R20). -/
abbrev CctlLayout.Wf (l : CctlLayout) : Prop :=
  (∀ f ∈ l.fields, f.Fits) ∧ l.fields.Pairwise Field.Disjoint

/-- CCTL_LAYOUT, default (R20): MODE 3:0, LOAD 5:4, CLR 7:6, STO 9:8, TSTART 10, TB 11. -/
def CctlLayout.default : CctlLayout := { mode := 0, load := 4, clr := 6, sto := 8, tstart := 10, tb := 11 }

/-- ICTL_LAYOUT: the lowest bit of each of the five fields of the interrupt-control word (R24). -/
structure IctlLayout where
  ien : Nat
  cmpirq : Nat
  cbirq : Nat
  lben : Nat
  xen : Nat
  deriving DecidableEq, Repr

/-- The five fields with the widths R24 fixes: IEN 1, CMPIRQ 3, CBIRQ 2, LBEN 1, XEN 1. -/
def IctlLayout.fIen (l : IctlLayout) : Field := { pos := l.ien, width := 1 }
@[inherit_doc IctlLayout.fIen] def IctlLayout.fCmpirq (l : IctlLayout) : Field := { pos := l.cmpirq, width := 3 }
@[inherit_doc IctlLayout.fIen] def IctlLayout.fCbirq (l : IctlLayout) : Field := { pos := l.cbirq, width := 2 }
@[inherit_doc IctlLayout.fIen] def IctlLayout.fLben (l : IctlLayout) : Field := { pos := l.lben, width := 1 }
@[inherit_doc IctlLayout.fIen] def IctlLayout.fXen (l : IctlLayout) : Field := { pos := l.xen, width := 1 }

/-- The five fields of the interrupt-control word. -/
def IctlLayout.fields (l : IctlLayout) : List Field := [l.fIen, l.fCmpirq, l.fCbirq, l.fLben, l.fXen]

/-- Well-formedness of an ICTL_LAYOUT instance, "as in rule R20" (R24). -/
abbrev IctlLayout.Wf (l : IctlLayout) : Prop :=
  (∀ f ∈ l.fields, f.Fits) ∧ l.fields.Pairwise Field.Disjoint

/-- ICTL_LAYOUT, default (R24): IEN 0, CMPIRQ 3:1, CBIRQ 5:4, LBEN 6, XEN 7. -/
def IctlLayout.default : IctlLayout := { ien := 0, cmpirq := 1, cbirq := 4, lben := 6, xen := 7 }

/-- PEND_LAYOUT: `sh(c)`, the bit of its pending-flag register at which the five flags of channel `c` begin, kind
`k` at bit `sh(c) + k` (R28). -/
structure PendLayout where
  sh : Quad Nat
  deriving DecidableEq, Repr

/-- The five flags of channel `c` as a field of its register. -/
def PendLayout.field (l : PendLayout) (c : Chan) : Field := { pos := l.sh.get c, width := 5 }

/-- Well-formedness of a PEND_LAYOUT instance (R28): five positions for each channel inside its register, and the
two channels of a register (A and B, C and D) do not overlap. -/
abbrev PendLayout.Wf (l : PendLayout) : Prop :=
  (∀ c ∈ Chan.all, (l.field c).Fits) ∧ (l.field .chA).Disjoint (l.field .chB) ∧ (l.field .chC).Disjoint (l.field .chD)

/-- PEND_LAYOUT, default (R28): `sh(c) = 8 * (c mod 2)`. -/
def PendLayout.default : PendLayout := { sh := { a := 0, b := 8, c := 0, d := 8 } }

/-- ARM_OUTCTL0, ARM_OUTCTL1 and HANDLER_SENDS_SIGNALS have no default (R4): free values, nothing can be proved of
them. They stand in `Params.default` only because a state must hold some value; see assumption log 6. -/
opaque Config.armOutctl0 : Reg16
@[inherit_doc Config.armOutctl0] opaque Config.armOutctl1 : Reg16
@[inherit_doc Config.armOutctl0] opaque Config.handlerSendsSignals : Bool

/-- The reserved bits of PEND0 and PEND1 at the n-th read of one of them: `draw` (R56, U1), a free value. -/
opaque Config.pendReserved : Nat → Reg16

/-- The open parameters of R4, each "a configuration field". A machine keeps them fixed: no rule writes one. -/
structure Params where
  regmap : RegMap
  cctl : CctlLayout
  ictl : IctlLayout
  pend : PendLayout
  armOutctl0 : Reg16
  armOutctl1 : Reg16
  armOutcfgOr : Reg16
  ptIdleTeardown : Bool
  handlerSendsSignals : Bool
  deriving DecidableEq, Repr

/-- The well-formedness conditions of R20, R24, R28 and R53. -/
abbrev Params.Wf (p : Params) : Prop := p.regmap.Wf ∧ p.cctl.Wf ∧ p.ictl.Wf ∧ p.pend.Wf

/-- The defaults of R4; the three parameters without a default are the free values above. -/
def Params.default : Params :=
  { regmap := .default, cctl := .default, ictl := .default, pend := .default,
    armOutctl0 := Config.armOutctl0, armOutctl1 := Config.armOutctl1, armOutcfgOr := 0x0001,
    ptIdleTeardown := false, handlerSendsSignals := Config.handlerSendsSignals }

end Sys2Proof
end

