-- ==== Sys2Proof/Machine/State.lean ====
section
/-!
DEFINITION. Sys2Proof/Machine/State.lean: the state of the block, plain data: the triple (HW, CTL, IF) of spec rule
R10, the position of the command and of the handler invocation in progress (R12, R65, R246), the environment's future
actions (assumption log 4), and the open parameters (R4). Also the reasons a step can stop, and the state after reset.
-/

namespace Sys2Proof.Machine

/-! ## HW: what sits behind the register file -/

/-- The hardware of one channel: its storage registers (R11, R13, R20, R24), the live counter, the latch, the open
measurement gate (R37) and the pending flags (R27). CNT_LO and CNT_HI are views of `lat` (R14), PEND0 and PEND1 views
of `pend` (R28). -/
structure HwChan where
  cntctl : Reg16
  cmpaLo : Reg16
  cmpaHi : Reg16
  cmpbLo : Reg16
  cmpbHi : Reg16
  preLo : Reg16
  preHi : Reg16
  intctl : Reg16
  cnt : Word
  lat : Word
  pend : BitVec 5
  tb : Bool
  deriving DecidableEq, Repr

/-! ## CTL: what the controller keeps -/

/-- The channel record (R15). -/
structure ChanRec where
  mode : BitVec 4
  ldc : BitVec 2
  clc : BitVec 2
  stc : BitVec 2
  tst : BitVec 1
  cmpA : Word
  cmpB : Word
  ien : Bool
  cmpirq : BitVec 3
  cbirq : BitVec 2
  lben : Bool
  xen : Bool
  pss : BitVec 5
  rdmode : BitVec 2
  rdtout : Word
  wrmode : BitVec 1
  sig : Slots
  rsem : Bool
  deriving DecidableEq, Repr

/-- "Zero state: every field zero, every sig[k] empty, rsem = 0" (R206 i1). -/
def ChanRec.zero : ChanRec :=
  { mode := 0, ldc := 0, clc := 0, stc := 0, tst := 0, cmpA := 0, cmpB := 0, ien := false, cmpirq := 0, cbirq := 0,
    lben := false, xen := false, pss := 0, rdmode := 0, rdtout := 0, wrmode := 0, sig := .empty, rsem := false }

/-! ## Micro-steps -/

/-- The three fields of the count-control word that have an immediate code (R105). -/
inductive ForceField where
  | load | clr | sto
  deriving DecidableEq, Repr

/-- What a micro-step writes into a register: "the value a micro-step writes is computed from the state at that
micro-step" (R65). -/
inductive Src where
  /-- A value fixed when the command started. -/
  | const (v : Reg16)
  /-- `CCTL(c)` (R21). -/
  | cctl (c : Chan)
  /-- `CCTL(c)` with a field replaced by its immediate code (R105). -/
  | cctlForce (c : Chan) (f : ForceField)
  /-- `CCTL(c)` with TB = 1 (R109). -/
  | cctlTb (c : Chan)
  /-- `ICTL(c)` (R25). -/
  | ictl (c : Chan)
  /-- The mirrors of the output registers and of the self-test register (R29). -/
  | octl0 | octl1 | ocfg | stest
  /-- The halves of the handler's masked bitmask `m` (R235). -/
  | maskLo | maskHi
  /-- The halves of the handler's recomputed preloads s1 and s2 (R169). -/
  | s1Lo | s1Hi | s2Lo | s2Hi
  /-- The defined bits of PEND0 and of PEND1, PENDMASK16 (R28, R207). -/
  | pendMask0 | pendMask1
  deriving DecidableEq, Repr

/-- What a command returns in RDATA: the value of a record field (R183), of a local of the command, or 0. -/
inductive Query where
  | zero
  | mode (c : Chan) | ldc (c : Chan) | clc (c : Chan) | stc (c : Chan) | tst (c : Chan)
  | cmpA (c : Chan) | cmpB (c : Chan) | rdmode (c : Chan) | rdtout (c : Chan) | wrmode (c : Chan)
  | ien (c : Chan) | cmpirq (c : Chan) | cbirq (c : Chan) | lben (c : Chan) | xen (c : Chan)
  | ptofs | pten | outmode | outset | selftest | irqcnt
  /-- `v` of GET.IRQSTAT (R135). -/
  | status
  /-- `compose(l, h)` of READ (R111). -/
  | count
  deriving DecidableEq, Repr

/-- The action of one micro-step of a command or of the handler. -/
inductive Act where
  | setMode (c : Chan) (v : BitVec 4) | setLdc (c : Chan) (v : BitVec 2) | setClc (c : Chan) (v : BitVec 2)
  | setStc (c : Chan) (v : BitVec 2) | setTst (c : Chan) (v : BitVec 1)
  | setCmpA (c : Chan) (v : Word) | setCmpB (c : Chan) (v : Word)
  | setRdmode (c : Chan) (v : BitVec 2) | setRdtout (c : Chan) (v : Word) | setWrmode (c : Chan) (v : BitVec 1)
  | setCmpirq (c : Chan) (v : BitVec 3) | setCbirq (c : Chan) (v : BitVec 2)
  | setLben (c : Chan) (v : Bool) | setXen (c : Chan) (v : Bool)
  | setSig (c : Chan) (k : Kind) (o : Option Word)
  /-- `ien <- 1`, `ien <- 0`, `pss <- 0` (R140). -/
  | ienOn (c : Chan) | ienOff (c : Chan) | pssZero (c : Chan)
  /-- a8 of R163, on channel A. -/
  | armRef
  /-- b4 of R164: `cmpirq <- 3; ien <- 0; pss <- 0`. -/
  | armMask (c : Chan)
  /-- b6 of R164. -/
  | armSlave (c : Chan)
  | setOctl0 (v : Reg16) | setOctl1 (v : Reg16) | setOcfg (v : Reg16) | setStest (v : Reg16)
  /-- a6 of R163: `ocfg <- ocfg | ARM_OUTCFG_OR`. -/
  | orOcfg
  /-- o1 and o3 of R166. -/
  | armOctl0 | armOctl1
  | setPtofs (v : Word)
  /-- u1 of R162: `old <- pten; pten <- DATA`. -/
  | setPten (v : Bool)
  | setPtarmed (v : Bool)
  /-- i1 of R206. -/
  | zeroCtl
  /-- i6 of R206. -/
  | goLive
  /-- x1 of R207. -/
  | goDown
  /-- `masked {` and `}` (R66). -/
  | maskOpen | maskClose
  /-- `MemWrite(A_r, 2, src)` (R6). -/
  | write (r : Reg) (src : Src)
  /-- u0 of R111: `m <- ch[c].rdmode`. -/
  | readMode (c : Chan)
  /-- u1 of R111: acquire, time out or block. -/
  | await (c : Chan)
  /-- u4a and u4b of R111. -/
  | readLo (c : Chan) | readHi (c : Chan)
  /-- u1 of R135 and of R136. -/
  | statQuery (c : Chan) | statClear (c : Chan) (mask : BitVec 5)
  /-- `return v`. -/
  | ret (q : Query)
  /-- h1 to h6 (R233 to R236). -/
  | hPend0 | hPend1 | hFold | hOwn
  /-- p0, p1, p2 and the choice of p3 (R168), r0 (R169). -/
  | hEdge | hCntLo | hCntHi | hDecide | hCompute
  /-- h8 to h11 (R237 to R241). -/
  | hCount | hSem | hNotify | hEnd
  deriving DecidableEq, Repr

/-- The `if` under which a micro-step stands. A micro-step whose guard is false is passed over. -/
inductive Guard where
  | always
  /-- `if m = …` of READ (R111). -/
  | readMode (m : BitVec 2)
  /-- `if ch[c].wrmode = 1` of WRITE (R110). -/
  | forceLoad (c : Chan)
  /-- `if old = 0 and DATA = 1` of SET.PTEN (R162). -/
  | arm
  /-- p0 did not return (R168). -/
  | edge
  /-- p3 chose Recompute (R168). -/
  | recompute
  /-- p3 chose Teardown (R168). -/
  | teardown
  deriving DecidableEq, Repr

/-- One micro-step of a command or of the handler: a guard and an action, atomic (R6, R65). -/
structure Micro where
  guard : Guard
  act : Act
  deriving DecidableEq, Repr

/-- A micro-step that stands under no `if`. -/
def Act.always (a : Act) : Micro := { guard := .always, act := a }

/-- A micro-step under an `if`. -/
def Act.under (a : Act) (g : Guard) : Micro := { guard := g, act := a }

/-- The local values of the command in progress (R246): READ's `m`, `l`, `h`, whether SET.PTEN made a false to true
transition (its `old` and DATA), GET.IRQSTAT's `v`. -/
structure Locals where
  m : BitVec 2
  arm : Bool
  l : Reg16
  h : Reg16
  v : BitVec 5
  deriving DecidableEq, Repr

/-- The locals before a command has set one. -/
def Locals.clear : Locals := { m := 0, arm := false, l := 0, h := 0, v := 0 }

/-- Which branch p3 of the per-edge update took (R168). -/
inductive EdgeBranch where
  | undecided | recompute | teardown
  deriving DecidableEq, Repr

/-- The local values of the handler invocation in progress (R233 to R237, R168, R169). -/
structure HLocals where
  p0 : Reg16
  p1 : Reg16
  m : Word
  edge : Bool
  l : Reg16
  h : Reg16
  branch : EdgeBranch
  s1 : Word
  s2 : Word
  deriving DecidableEq, Repr

/-- The handler's locals before it has set one. -/
def HLocals.clear : HLocals :=
  { p0 := 0, p1 := 0, m := 0, edge := false, l := 0, h := 0, branch := .undecided, s1 := 0, s2 := 0 }

/-! ## IF: ports, events -/

/-- The initial values of one channel on the CFG port (R206), each a whole 32-bit value as its setter would take it,
so that a value out of range can be presented. -/
structure CfgChan where
  mode : Word
  ldc : Word
  clc : Word
  stc : Word
  tst : Word
  cmpA : Word
  cmpB : Word
  ien : Word
  cmpirq : Word
  cbirq : Word
  lben : Word
  xen : Word
  rdmode : Word
  rdtout : Word
  wrmode : Word
  deriving DecidableEq, Repr

/-- Every initial value zero. -/
def CfgChan.zero : CfgChan :=
  { mode := 0, ldc := 0, clc := 0, stc := 0, tst := 0, cmpA := 0, cmpB := 0, ien := 0, cmpirq := 0, cbirq := 0,
    lben := 0, xen := 0, rdmode := 0, rdtout := 0, wrmode := 0 }

/-- The CFG port: the CFG record and the four collaborator results that accompany it (R35, R206). -/
structure CfgPort where
  chans : Quad CfgChan
  outMode : Word
  outSet : Word
  allocOk : Bool
  idOk : Bool
  logicOk : Bool
  logicBypass : Bool
  deriving DecidableEq, Repr

/-- An event of the output event list (R36). -/
inductive OutEvent where
  /-- `SEMSIGNAL(c)` (R238). -/
  | semSignal (c : Chan)
  /-- `NOTIFY(c, k, token)` (R240). -/
  | notify (c : Chan) (k : Kind) (token : Word)
  deriving DecidableEq, Repr

/-- What the handler port last answered (R35): nothing yet, NOT_MINE or MINE. -/
inductive HandlerPort where
  | none | notMine | mine
  deriving DecidableEq, Repr

/-! ## The environment -/

/-- An event of the CORE agent (R39, R41, R42). -/
inductive CoreEvent where
  | setPending (c : Chan) (b : BitVec 5)
  | perturb (c : Chan) (n l : Word)
  | gateClose (c : Chan)
  deriving DecidableEq, Repr

/-- A command as HOST presents it on the command port (R80). -/
structure Command where
  cw : BitVec 16
  data : Word
  deriving DecidableEq, Repr

/-- One entry of the schedule: who acts next (R63, R65; log 4). -/
inductive Event where
  /-- The agent in control (the handler while one runs, else HOST) takes its next micro-step. -/
  | go
  /-- A CORE event. -/
  | core (e : CoreEvent)
  /-- The IRQ agent asks for a handler invocation. -/
  | irq
  /-- The timer of a waiting READ fires (R111). -/
  | timeout
  /-- HOST puts new values on the CFG port. -/
  | present (p : CfgPort)
  /-- The step ends here, between two micro-steps, and the next step goes on. -/
  | pause
  deriving DecidableEq, Repr

/-! ## Outcomes -/

/-- No rule of the spec stops the block with a fault: an error is a status code and the next command is served
(R220, R227), and "nothing can fault inside the handler" (R247). So no one raises a fault, which is safe. -/
inductive Fault where
  deriving DecidableEq, Repr

/-- Why a step has no meaning. Each is a refusal the spec itself asks for, and errs toward unprovable (safe). -/
inductive Refusal where
  /-- Raised by an arm of `exec` that has no meaning yet. Safe. -/
  | notModelled (mnemonic : String)
  /-- A command other than INIT while `live = 0` (R92, U14). Safe. -/
  | notLive
  /-- INIT while `live = 1` (R92, U14). Safe. -/
  | alreadyLive
  /-- A command while another is in progress (R64, U13). Safe. -/
  | overlap
  /-- SET.SELFTEST with a nonzero DATA in range (R182, U6). Safe. -/
  | selftestNonzero
  /-- An access whose size is not 2, whose offset is odd, or whose offset has no register (R55, U9). Safe. -/
  | badAccess
  /-- A `MemRead` of a register other than CNT_LO, CNT_HI, PEND0, PEND1 (R56, U7). Safe. -/
  | unreadable
  /-- A `MemWrite` to CNT_LO or CNT_HI (R61, U8). Safe. -/
  | readOnly
  /-- A `MemWrite` to CNTCTL with more than one immediate code (R58, U2). Safe. -/
  | doubleForce
  deriving DecidableEq, Repr

/-! ## The state -/

/-- The state of the block. -/
structure State where
  /-- The open parameters (R4); no step writes them. -/
  par : Params
  /-- HW, per channel. -/
  hw : Quad HwChan
  outctl0 : Reg16
  outctl1 : Reg16
  outcfg : Reg16
  selftest : Reg16
  /-- CTL, per channel. -/
  ch : Quad ChanRec
  octl0 : Reg16
  octl1 : Reg16
  ocfg : Reg16
  stest : Reg16
  irqcnt : Word
  ptofs : Word
  pten : Bool
  ptarmed : Bool
  live : Bool
  /-- IF: a masked section is open; the handler runs (R34). -/
  imask : Bool
  inh : Bool
  evs : List OutEvent
  status : BitVec 4
  rdata : Word
  hport : HandlerPort
  cfg : CfgPort
  /-- The remaining micro-steps of the command in progress and its locals (R12, R65, R246). -/
  prog : List Micro
  loc : Locals
  /-- The remaining micro-steps of the handler invocation in progress and its locals. -/
  hprog : List Micro
  hloc : HLocals
  /-- The environment: the commands HOST will issue, the schedule, the number of draws so far (logs 4 and 7). -/
  inbox : List Command
  script : List Event
  draws : Nat
  deriving DecidableEq, Repr

/-- The hardware of a channel after reset: unspecified (R45, R260); zero is the model's choice (log 1). -/
def HwChan.reset : HwChan :=
  { cntctl := 0, cmpaLo := 0, cmpaHi := 0, cmpbLo := 0, cmpbHi := 0, preLo := 0, preHi := 0, intctl := 0,
    cnt := 0, lat := 0, pend := 0, tb := false }

/-- The state after power-on (R45, R260): `live = 0`, `imask = 0`, `inh = 0`, `evs` empty are the spec's; every other
value is the model's choice (logs 1, 2, 3, 6). -/
def State.reset : State :=
  { par := .default, hw := .fill .reset, outctl0 := 0, outctl1 := 0, outcfg := 0, selftest := 0,
    ch := .fill .zero, octl0 := 0, octl1 := 0, ocfg := 0, stest := 0, irqcnt := 0, ptofs := 25,
    pten := false, ptarmed := false, live := false, imask := false, inh := false, evs := [],
    status := 0, rdata := 0, hport := .none,
    cfg := { chans := .fill .zero, outMode := 0, outSet := 0, allocOk := true, idOk := true, logicOk := true,
             logicBypass := false },
    prog := [], loc := .clear, hprog := [], hloc := .clear, inbox := [], script := [], draws := 0 }

/-- The channel record of `c` changed by `f`. -/
def State.modRec (s : State) (c : Chan) (f : ChanRec → ChanRec) : State := { s with ch := s.ch.set c (f (s.ch.get c)) }

/-- The hardware of `c` changed by `f`. -/
def State.modHw (s : State) (c : Chan) (f : HwChan → HwChan) : State := { s with hw := s.hw.set c (f (s.hw.get c)) }

/-- The outcome of a step of this machine. -/
abbrev Out := Host.Outcome State Fault Refusal

end Sys2Proof.Machine
end

