-- ==== Sys2Proof/Machine/Operands.lean ====
section
/-!
DEFINITION. Sys2Proof/Machine/Operands.lean: the halves of a 32-bit quantity (spec rule R5), the fields of a register
word, the status codes (R220), the operand checks of R87 with the code a failing check gives, and INIT's checks (R206).
-/

namespace Sys2Proof.Machine

/-! ## Halves and fields -/

/-- `lo16(v) = v[15:0]` (R5). -/
def lo16 (v : Word) : Reg16 := v.extractLsb' 0 16

/-- `hi16(v) = v[31:16]` (R5). -/
def hi16 (v : Word) : Reg16 := v.extractLsb' 16 16

/-- `compose(l, h) = zext_32(l) | (zext_32(h) << 16)` (R5). -/
def compose (l h : Reg16) : Word := l.zeroExtend 32 ||| (h.zeroExtend 32 <<< 16)

/-- The low `n` bits of a word set, the others clear. -/
def lowMask (n : Nat) : Reg16 := BitVec.ofNat 16 (2 ^ n - 1)

/-- The value of a field, moved to its place in a register word; bits that do not fit the field are dropped. -/
def fieldPut (f : Field) (v : Reg16) : Reg16 := (v &&& lowMask f.width) <<< f.pos

/-- The value of a field of a register word (R5 `v[hi:lo]`). -/
def fieldGet (f : Field) (w : Reg16) : Reg16 := (w >>> f.pos) &&& lowMask f.width

/-- The bits of a field, all ones. -/
def fieldMask (f : Field) : Reg16 := fieldPut f (BitVec.allOnes 16)

/-! ## Status codes -/

/-- STATUS values (R220). -/
def statusOk : BitVec 4 := 0
@[inherit_doc statusOk] def invalidParameter : BitVec 4 := 1
@[inherit_doc statusOk] def identityMismatch : BitVec 4 := 2
@[inherit_doc statusOk] def resourceExhaustion : BitVec 4 := 3
@[inherit_doc statusOk] def timedOut : BitVec 4 := 4
@[inherit_doc statusOk] def unsupportedOperation : BitVec 4 := 5
@[inherit_doc statusOk] def signalInstalled : BitVec 4 := 6
@[inherit_doc statusOk] def signalNotInstalled : BitVec 4 := 7

/-! ## Operand checks -/

/-- The mode operand: "enum(10) with the extra exclusion of 8" (R87, R101). -/
def modeOk (d : Word) : Bool := d.toNat ≤ 10 && d.toNat != 8

/-- enum(n), bool (n = 1), u4 (n = 15), mask5 (n = 31), u16 (n = 65535): valid when `DATA <= n` (R87). -/
def upTo (n : Nat) (d : Word) : Bool := d.toNat ≤ n

/-- The event kind a KIND field names, if it names one: 0..4 (R23, R85 step 4). -/
def kindOfField (k : BitVec 3) : Option Kind :=
  match k.toNat with
  | 0 => some .ready
  | 1 => some .comparator
  | 2 => some .carryBorrow
  | 3 => some .lineBreak
  | 4 => some .externalEdge
  | _ => none

/-- A check that fails with InvalidParameter (R221): the status code to raise, if any. -/
def require (ok : Bool) : Option (BitVec 4) := if ok then none else some invalidParameter

/-- A boolean operand that passed its check: 1 = true (R87). -/
def asBool (d : Word) : Bool := d.getLsbD 0

/-- A boolean as the value a getter returns: 0 or 1 (R88). -/
def ofBool (b : Bool) : Word := if b then 1 else 0

/-! ## INIT's check of the CFG record -/

/-- Every value of one channel is in the range its setter accepts (R206, R101 to R114, R130 to R134). -/
def cfgChanOk (g : CfgChan) : Bool :=
  modeOk g.mode && upTo 3 g.ldc && upTo 3 g.clc && upTo 2 g.stc && upTo 1 g.tst && upTo 1 g.ien && upTo 5 g.cmpirq &&
    upTo 3 g.cbirq && upTo 1 g.lben && upTo 1 g.xen && upTo 2 g.rdmode && upTo 1 g.wrmode

/-- "Any CFG value outside the range its setter accepts" fails the configuration check (R206, R181). -/
def cfgOk (p : CfgPort) : Bool :=
  cfgChanOk p.chans.a && cfgChanOk p.chans.b && cfgChanOk p.chans.c && cfgChanOk p.chans.d && upTo 15 p.outSet

/-- The four checks of INIT in their order: allocation, configuration, identity, logic load (R206). -/
def initCheck (p : CfgPort) : Option (BitVec 4) :=
  if p.allocOk = false then some resourceExhaustion
  else if cfgOk p = false then some invalidParameter
  else if p.idOk = false then some identityMismatch
  else if p.logicOk = false && p.logicBypass = false then some identityMismatch
  else none

end Sys2Proof.Machine
end

