-- ==== Sys2Proof/Machine/Flags.lean ====
section
/-!
DEFINITION. Sys2Proof/Machine/Flags.lean: the count-control and interrupt-control words (spec rules R20, R21, R24,
R25), the pending flags and their packing (R28, R56, R60), the interrupt request line (R231), the quiescence of a
channel (R40), and the handler's fold, semaphore and notification passes (R234, R238, R240).
-/

namespace Sys2Proof.Machine

/-! ## Control words -/

/-- One bit as a field value. -/
def bit16 (b : Bool) : Reg16 := if b then 1 else 0

/-- `CCTL(c)` of a channel record: the five persisted fields at their places, TB = 0, every other bit 0 (R21). -/
def cctlWord (l : CctlLayout) (r : ChanRec) : Reg16 :=
  fieldPut l.fMode (r.mode.zeroExtend 16) ||| fieldPut l.fLoad (r.ldc.zeroExtend 16) |||
    fieldPut l.fClr (r.clc.zeroExtend 16) ||| fieldPut l.fSto (r.stc.zeroExtend 16) |||
    fieldPut l.fTstart (r.tst.zeroExtend 16)

/-- The record with a condition replaced by its immediate code: LOAD 2, CLR 2, STO 1 (R105, R17, R18). -/
def forced (f : ForceField) (r : ChanRec) : ChanRec :=
  match f with
  | .load => { r with ldc := 2 }
  | .clr => { r with clc := 2 }
  | .sto => { r with stc := 1 }

/-- `ICTL(c)` of a channel record (R25). -/
def ictlWord (l : IctlLayout) (r : ChanRec) : Reg16 :=
  fieldPut l.fIen (bit16 r.ien) ||| fieldPut l.fCmpirq (r.cmpirq.zeroExtend 16) |||
    fieldPut l.fCbirq (r.cbirq.zeroExtend 16) ||| fieldPut l.fLben (bit16 r.lben) ||| fieldPut l.fXen (bit16 r.xen)

/-- A written count-control word asks for the immediate load: LOAD(v) = 2 (R58). -/
def loadNow (l : CctlLayout) (v : Reg16) : Bool := fieldGet l.fLoad v == 2

/-- CLR(v) = 2 (R58). -/
def clearNow (l : CctlLayout) (v : Reg16) : Bool := fieldGet l.fClr v == 2

/-- STO(v) = 1 (R58). -/
def storeNow (l : CctlLayout) (v : Reg16) : Bool := fieldGet l.fSto v == 1

/-- TB(v) = 1 (R59). -/
def gateNow (l : CctlLayout) (v : Reg16) : Bool := fieldGet l.fTb v == 1

/-- A written count-control word as it is stored: the TB bit position forced to 0 (R58, R59). -/
def withoutTb (l : CctlLayout) (v : Reg16) : Reg16 := v &&& ~~~(fieldMask l.fTb)

/-- "A channel c is quiescent when the hardware word CNTCTL[c] has MODE = 0, LOAD = 0, CLR = 0 and STO = 0" (R40). -/
def quiescent (l : CctlLayout) (v : Reg16) : Bool :=
  fieldGet l.fMode v == 0 && fieldGet l.fLoad v == 0 && fieldGet l.fClr v == 0 && fieldGet l.fSto v == 0

/-! ## Pending flags -/

/-- The five flags of channel `c` at their bits of a pending-flag register (R28). -/
def placeFlags (l : PendLayout) (c : Chan) (v : BitVec 5) : Reg16 := fieldPut (l.field c) (v.zeroExtend 16)

/-- `(w >> sh(c)) & 0x1F`: the five flags of channel `c` in the word of its register (R60, R135). -/
def takeFlags (l : PendLayout) (c : Chan) (w : Reg16) : BitVec 5 := (w >>> l.sh.get c).truncate 5

/-- The defined bits of a pending-flag register that carries channels `c` and `d`: PENDMASK16 (R28). -/
def definedBits (l : PendLayout) (c d : Chan) : Reg16 := placeFlags l c 0x1F ||| placeFlags l d 0x1F

/-- What a read of a pending-flag register that carries `c` and `d` returns: the flags in the defined positions and
`draw` in the reserved ones (R56). -/
def pendWord (l : PendLayout) (c d : Chan) (fc fd : BitVec 5) (draw : Reg16) : Reg16 :=
  placeFlags l c fc ||| placeFlags l d fd ||| (draw &&& ~~~(definedBits l c d))

/-- `reg(c) = PEND0 if c < 2 else PEND1` (R28). -/
def pendReg : Chan → Reg
  | .chA => .pend0
  | .chB => .pend0
  | .chC => .pend1
  | .chD => .pend1

/-- PENDMASK32 (R28, R233). -/
def pendMask32 (l : PendLayout) : Word := compose (definedBits l .chA .chB) (definedBits l .chC .chD)

/-- `pos(c) = 16 * (c div 2) + sh(c)`, the place of channel `c` in the 32-bit composition (R28, R233). -/
def pos (l : PendLayout) (c : Chan) : Nat :=
  match c with
  | .chA => l.sh.get .chA
  | .chB => l.sh.get .chB
  | .chC => 16 + l.sh.get .chC
  | .chD => 16 + l.sh.get .chD

/-- `(m >> pos(c)) & 0x1F` (R234). -/
def flagsOf (l : PendLayout) (c : Chan) (m : Word) : BitVec 5 := (m >>> pos l c).truncate 5

/-- `0x1F << pos(c)` (R234). -/
def chanMask (l : PendLayout) (c : Chan) : Word := (0x1F : Word) <<< pos l c

/-- INT_REQ, "exists c. INTCTL[c].IEN = 1 and pend[c] != 0", a level (R231). No step reads it. -/
def intReq (s : State) : Bool :=
  Chan.all.any fun c => fieldGet s.par.ictl.fIen (s.hw.get c).intctl == 1 && (s.hw.get c).pend != 0

/-! ## The handler's passes over the channels -/

/-- h3 for one channel: fold its bits into the shadow if it is enabled, else force the shadow to zero and mask the
bits out of `m` (R234). -/
def foldChan (s : State) (c : Chan) : State :=
  let b := flagsOf s.par.pend c s.hloc.m
  if (s.ch.get c).ien then s.modRec c fun r => { r with pss := r.pss ||| b }
  else
    let t := s.modRec c fun r => { r with pss := 0 }
    { t with hloc := { t.hloc with m := t.hloc.m &&& ~~~(chanMask s.par.pend c) } }

/-- h3 (R234): the four channels in order. -/
def foldAll (s : State) : State := Chan.all.foldl foldChan s

/-- h9 for one channel: a ready bit in `m` and `rdmode = 1` signal the semaphore (R238). -/
def signalChan (s : State) (c : Chan) : State :=
  if (flagsOf s.par.pend c s.hloc.m).getLsbD Kind.ready.index && (s.ch.get c).rdmode == 1 then
    let t := s.modRec c fun r => { r with rsem := true }
    { t with evs := t.evs ++ [.semSignal c] }
  else s

/-- h9 (R238). -/
def signalAll (s : State) : State := Chan.all.foldl signalChan s

/-- h10 for one channel and kind: notify the slot if the bit is in `m` and the slot is not empty (R240). -/
def notifySlot (c : Chan) (s : State) (k : Kind) : State :=
  if (flagsOf s.par.pend c s.hloc.m).getLsbD k.index then
    match (s.ch.get c).sig.get k with
    | some token => { s with evs := s.evs ++ [.notify c k token] }
    | none => s
  else s

/-- h10 for one channel: the kinds in order. -/
def notifyChan (s : State) (c : Chan) : State := Kind.all.foldl (notifySlot c) s

/-- h10, if HANDLER_SENDS_SIGNALS (R240). -/
def notifyAll (s : State) : State := if s.par.handlerSendsSignals then Chan.all.foldl notifyChan s else s

end Sys2Proof.Machine
end

