-- ==== Sys2Proof/Machine/Ops.lean ====
section
/-!
DEFINITION. Sys2Proof/Machine/Ops.lean: register file access (spec rules R55 to R61), the CORE events (R39 to R42),
errors (R220, R227), entry to and return from the handler (R246, R247), the micro-steps (R65), the handler's list of
them (R233 to R241), the running of micro-step lists under the schedule, and the acceptance of a command (R85).
-/

namespace Sys2Proof.Machine

/-! ## Register file access -/

/-- A 16-bit write to CNTCTL[c]: the contents replaced with the TB bit forced to 0, then the force action the written
fields select (R38, R58), and the gate opened if TB = 1 (R59). More than one immediate code is refused (R58, U2). -/
def writeCntctl (c : Chan) (v : Reg16) (s : State) : Except Refusal State :=
  let l := s.par.cctl
  let ld := loadNow l v
  let cl := clearNow l v
  let st := storeNow l v
  if (ld && cl) || (ld && st) || (cl && st) then .error .doubleForce
  else
    .ok (s.modHw c fun h =>
      { h with
        cntctl := withoutTb l v
        tb := h.tb || gateNow l v
        cnt := if ld then compose h.preLo h.preHi else if cl then 0 else h.cnt
        lat := if st then h.cnt else h.lat })

/-- Write-one-to-clear of the flags of channel `c` by a word written to its register (R60). -/
def clearFlags (c : Chan) (v : Reg16) (s : State) : State :=
  s.modHw c fun h => { h with pend := h.pend &&& ~~~(takeFlags s.par.pend c v) }

/-- The effect of a 16-bit write on a named register (R57 to R61). -/
def writeReg (r : Reg) (v : Reg16) (s : State) : Except Refusal State :=
  match r with
  | .cntctl c => writeCntctl c v s
  | .cmpaLo c => .ok (s.modHw c fun h => { h with cmpaLo := v })
  | .cmpaHi c => .ok (s.modHw c fun h => { h with cmpaHi := v })
  | .cmpbLo c => .ok (s.modHw c fun h => { h with cmpbLo := v })
  | .cmpbHi c => .ok (s.modHw c fun h => { h with cmpbHi := v })
  | .preLo c => .ok (s.modHw c fun h => { h with preLo := v })
  | .preHi c => .ok (s.modHw c fun h => { h with preHi := v })
  | .intctl c => .ok (s.modHw c fun h => { h with intctl := v })
  | .cntLo _ => .error .readOnly
  | .cntHi _ => .error .readOnly
  | .pend0 => .ok (clearFlags .chB v (clearFlags .chA v s))
  | .pend1 => .ok (clearFlags .chD v (clearFlags .chC v s))
  | .outctl0 => .ok { s with outctl0 := v }
  | .outctl1 => .ok { s with outctl1 := v }
  | .outcfg => .ok { s with outcfg := v }
  | .selftest => .ok { s with selftest := v }

/-- A read of the pending-flag register that carries channels `c` and `d`; the reserved bits are drawn (R56). -/
def readPend (c d : Chan) (s : State) : Reg16 × State :=
  (pendWord s.par.pend c d (s.hw.get c).pend (s.hw.get d).pend (Config.pendReserved s.draws),
    { s with draws := s.draws + 1 })

/-- A 16-bit read of a named register: defined for CNT_LO, CNT_HI, PEND0, PEND1 only (R14, R56). -/
def readReg (r : Reg) (s : State) : Except Refusal (Reg16 × State) :=
  match r with
  | .cntLo c => .ok (lo16 (s.hw.get c).lat, s)
  | .cntHi c => .ok (hi16 (s.hw.get c).lat, s)
  | .pend0 => .ok (readPend .chA .chB s)
  | .pend1 => .ok (readPend .chC .chD s)
  | .cntctl _ => .error .unreadable
  | .cmpaLo _ => .error .unreadable
  | .cmpaHi _ => .error .unreadable
  | .cmpbLo _ => .error .unreadable
  | .cmpbHi _ => .error .unreadable
  | .preLo _ => .error .unreadable
  | .preHi _ => .error .unreadable
  | .intctl _ => .error .unreadable
  | .outctl0 => .error .unreadable
  | .outctl1 => .error .unreadable
  | .outcfg => .error .unreadable
  | .selftest => .error .unreadable

/-- The register an access reaches: refused for a size other than 2, an odd offset, or an offset with no register
(R55). -/
def decodeAccess (m : RegMap) (addr size : Nat) : Except Refusal Reg :=
  if size ≠ 2 ∨ addr % 2 = 1 then .error .badAccess
  else
    match m.regAt addr with
    | some r => .ok r
    | none => .error .badAccess

/-- `MemWrite(addr, size, v)` (R6, R55, R57 to R61). -/
def memWrite (addr size : Nat) (v : Reg16) (s : State) : Except Refusal State :=
  match decodeAccess s.par.regmap addr size with
  | .ok r => writeReg r v s
  | .error e => .error e

/-- `MemRead(addr, size)` (R6, R55, R56). -/
def memRead (addr size : Nat) (s : State) : Except Refusal (Reg16 × State) :=
  match decodeAccess s.par.regmap addr size with
  | .ok r => readReg r s
  | .error e => .error e

/-! ## The CORE agent -/

/-- A CORE event. One that is not enabled (Perturb of a quiescent channel, R40, R41) does not happen (log 5). -/
def coreStep (e : CoreEvent) (s : State) : State :=
  match e with
  | .setPending c b => s.modHw c fun h => { h with pend := h.pend ||| b }
  | .perturb c n l =>
    if quiescent s.par.cctl (s.hw.get c).cntctl then s else s.modHw c fun h => { h with cnt := n, lat := l }
  | .gateClose c => s.modHw c fun h => { h with tb := false }

/-! ## Responses, and the handler's entry and return -/

/-- The response of a command: STATUS and RDATA; its locals end with it (R80, log 14). -/
def State.respond (s : State) (code : BitVec 4) (v : Word) : State :=
  { s with status := code, rdata := v, loc := .clear }

/-- `raise E`: STATUS = the code, RDATA = 0 (R6, R220). Nothing else changes (R227). -/
def State.raise (s : State) (code : BitVec 4) : State := s.respond code 0

/-- Entry to a handler invocation: `inh <- 1`, control to h1; nothing is saved, the interrupted command keeps its
position and its locals (R246). -/
def State.enterHandler (s : State) (steps : List Micro) : State :=
  { s with inh := true, hprog := steps, hloc := .clear }

/-- Return from a handler invocation at h6 or h11: `inh <- 0` and the result (R236, R241, R247); the handler's locals
end with it (log 14). -/
def State.leaveHandler (s : State) (result : HandlerPort) : State :=
  { s with inh := false, hport := result, hloc := .clear }

/-! ## Micro-steps -/

/-- The value a micro-step writes (R65). -/
def Src.eval (src : Src) (s : State) : Reg16 :=
  match src with
  | .const v => v
  | .cctl c => cctlWord s.par.cctl (s.ch.get c)
  | .cctlForce c f => cctlWord s.par.cctl (forced f (s.ch.get c))
  | .cctlTb c => cctlWord s.par.cctl (s.ch.get c) ||| fieldPut s.par.cctl.fTb 1
  | .ictl c => ictlWord s.par.ictl (s.ch.get c)
  | .octl0 => s.octl0
  | .octl1 => s.octl1
  | .ocfg => s.ocfg
  | .stest => s.stest
  | .maskLo => lo16 s.hloc.m
  | .maskHi => hi16 s.hloc.m
  | .s1Lo => lo16 s.hloc.s1
  | .s1Hi => hi16 s.hloc.s1
  | .s2Lo => lo16 s.hloc.s2
  | .s2Hi => hi16 s.hloc.s2
  | .pendMask0 => definedBits s.par.pend .chA .chB
  | .pendMask1 => definedBits s.par.pend .chC .chD

/-- The value a command returns (R88, R183, R111, R135). -/
def Query.eval (q : Query) (s : State) : Word :=
  match q with
  | .zero => 0
  | .mode c => (s.ch.get c).mode.zeroExtend 32
  | .ldc c => (s.ch.get c).ldc.zeroExtend 32
  | .clc c => (s.ch.get c).clc.zeroExtend 32
  | .stc c => (s.ch.get c).stc.zeroExtend 32
  | .tst c => (s.ch.get c).tst.zeroExtend 32
  | .cmpA c => (s.ch.get c).cmpA
  | .cmpB c => (s.ch.get c).cmpB
  | .rdmode c => (s.ch.get c).rdmode.zeroExtend 32
  | .rdtout c => (s.ch.get c).rdtout
  | .wrmode c => (s.ch.get c).wrmode.zeroExtend 32
  | .ien c => ofBool (s.ch.get c).ien
  | .cmpirq c => (s.ch.get c).cmpirq.zeroExtend 32
  | .cbirq c => (s.ch.get c).cbirq.zeroExtend 32
  | .lben c => ofBool (s.ch.get c).lben
  | .xen c => ofBool (s.ch.get c).xen
  | .ptofs => s.ptofs
  | .pten => ofBool s.pten
  | .outmode => compose s.octl0 s.octl1
  | .outset => s.ocfg.zeroExtend 32
  | .selftest => s.stest.zeroExtend 32
  | .irqcnt => s.irqcnt
  | .status => s.loc.v.zeroExtend 32
  | .count => compose s.loc.l s.loc.h

/-- What a micro-step does to the list it stands in. -/
inductive Flow where
  /-- Go on with the next micro-step. -/
  | cont (s : State)
  /-- The command or the invocation ends here. -/
  | ended (s : State)
  /-- Stay at this micro-step (R111 block). -/
  | blocked
  /-- The step has no meaning. -/
  | refused (r : Refusal)

/-- A register write as a micro-step. -/
def Flow.ofWrite : Except Refusal State → Flow
  | .ok s => .cont s
  | .error r => .refused r

/-- A register read as a micro-step, its value put where `store` says. -/
def Flow.ofRead (store : Reg16 → State → State) : Except Refusal (Reg16 × State) → Flow
  | .ok (v, s) => .cont (store v s)
  | .error r => .refused r

/-- `PRE` written by the per-edge update: s1 = v - o and s2 = v / 2 - o, modulo 2^32 (R169). -/
def slavePreload1 (v o : Word) : Word := v - o
@[inherit_doc slavePreload1] def slavePreload2 (v o : Word) : Word := v / 2 - o

/-- The minimum pretrigger offset (R3 PT_MIN). -/
def ptMin : Word := 25

/-- `max(DATA, 25)` (R161). -/
def clampOffset (d : Word) : Word := if d < ptMin then ptMin else d

/-- "CTL <- zero state" (R206 i1), all of CTL but `live`. EXIT leaves CTL so too: "as at power-on" (R47), where the
model's power-on values are these (logs 2 and 22); `ptarmed` is cleared (R160). -/
def State.zeroCtl (s : State) : State :=
  { s with
    ch := .fill .zero, octl0 := 0, octl1 := 0, ocfg := 0, stest := 0, irqcnt := 0, ptofs := ptMin,
    pten := false, ptarmed := false }

/-- The action of a micro-step. Each is atomic (R65). -/
def Act.run (a : Act) (s : State) : Flow :=
  match a with
  | .setMode c v => .cont (s.modRec c fun r => { r with mode := v })
  | .setLdc c v => .cont (s.modRec c fun r => { r with ldc := v })
  | .setClc c v => .cont (s.modRec c fun r => { r with clc := v })
  | .setStc c v => .cont (s.modRec c fun r => { r with stc := v })
  | .setTst c v => .cont (s.modRec c fun r => { r with tst := v })
  | .setCmpA c v => .cont (s.modRec c fun r => { r with cmpA := v })
  | .setCmpB c v => .cont (s.modRec c fun r => { r with cmpB := v })
  | .setRdmode c v => .cont (s.modRec c fun r => { r with rdmode := v })
  | .setRdtout c v => .cont (s.modRec c fun r => { r with rdtout := v })
  | .setWrmode c v => .cont (s.modRec c fun r => { r with wrmode := v })
  | .setCmpirq c v => .cont (s.modRec c fun r => { r with cmpirq := v })
  | .setCbirq c v => .cont (s.modRec c fun r => { r with cbirq := v })
  | .setLben c v => .cont (s.modRec c fun r => { r with lben := v })
  | .setXen c v => .cont (s.modRec c fun r => { r with xen := v })
  | .setSig c k o => .cont (s.modRec c fun r => { r with sig := r.sig.set k o })
  | .ienOn c => .cont (s.modRec c fun r => { r with ien := true })
  | .ienOff c => .cont (s.modRec c fun r => { r with ien := false })
  | .pssZero c => .cont (s.modRec c fun r => { r with pss := 0 })
  | .armRef => .cont (s.modRec .chA fun r => { r with mode := 10, stc := 2, clc := 1, ldc := 0, tst := 0 })
  | .armMask c => .cont (s.modRec c fun r => { r with cmpirq := 3, ien := false, pss := 0 })
  | .armSlave c => .cont (s.modRec c fun r => { r with mode := 10, ldc := 1, clc := 0, stc := 0, tst := 0 })
  | .setOctl0 v => .cont { s with octl0 := v }
  | .setOctl1 v => .cont { s with octl1 := v }
  | .setOcfg v => .cont { s with ocfg := v }
  | .setStest v => .cont { s with stest := v }
  | .orOcfg => .cont { s with ocfg := s.ocfg ||| s.par.armOutcfgOr }
  | .armOctl0 => .cont { s with octl0 := s.par.armOutctl0 }
  | .armOctl1 => .cont { s with octl1 := s.par.armOutctl1 }
  | .setPtofs v => .cont { s with ptofs := v }
  | .setPten b => .cont { s with pten := b, loc := { s.loc with arm := b && !s.pten } }
  | .setPtarmed b => .cont { s with ptarmed := b }
  | .zeroCtl => .cont s.zeroCtl
  | .goLive => .cont { s with live := true }
  | .goDown => .cont { s.zeroCtl with live := false }
  | .maskOpen => .cont { s with imask := true }
  | .maskClose => .cont { s with imask := false }
  | .write r src => .ofWrite (memWrite (s.par.regmap.offset r) 2 (src.eval s) s)
  | .readMode c => .cont { s with loc := { s.loc with m := (s.ch.get c).rdmode } }
  | .await c =>
    if (s.ch.get c).rsem then .cont (s.modRec c fun r => { r with rsem := false })
    else if (s.ch.get c).rdtout = 0 then .ended (s.raise timedOut)
    else .blocked
  | .readLo c =>
    .ofRead (fun v t => { t with loc := { t.loc with l := v } }) (memRead (s.par.regmap.offset (.cntLo c)) 2 s)
  | .readHi c =>
    .ofRead (fun v t => { t with loc := { t.loc with h := v } }) (memRead (s.par.regmap.offset (.cntHi c)) 2 s)
  | .statQuery c =>
    if (s.ch.get c).ien then .cont { s with loc := { s.loc with v := (s.ch.get c).pss } }
    else
      .ofRead (fun v t => { t with loc := { t.loc with v := takeFlags t.par.pend c v } })
        (memRead (s.par.regmap.offset (pendReg c)) 2 s)
  | .statClear c mask =>
    if (s.ch.get c).ien then .cont (s.modRec c fun r => { r with pss := r.pss &&& ~~~mask })
    else .ofWrite (memWrite (s.par.regmap.offset (pendReg c)) 2 (placeFlags s.par.pend c mask) s)
  | .ret q => .ended (s.respond statusOk (q.eval s))
  | .hPend0 =>
    .ofRead (fun v t => { t with hloc := { t.hloc with p0 := v } }) (memRead (s.par.regmap.offset .pend0) 2 s)
  | .hPend1 =>
    .ofRead
      (fun v t =>
        { t with hloc := { t.hloc with p1 := v, m := compose t.hloc.p0 v &&& pendMask32 t.par.pend } })
      (memRead (s.par.regmap.offset .pend1) 2 s)
  | .hFold => .cont (foldAll s)
  | .hOwn => if s.hloc.m = 0 then .ended (s.leaveHandler .notMine) else .cont s
  | .hEdge => .cont { s with hloc := { s.hloc with edge := s.ptarmed || s.par.ptIdleTeardown } }
  | .hCntLo =>
    .ofRead (fun v t => { t with hloc := { t.hloc with l := v } }) (memRead (s.par.regmap.offset (.cntLo .chA)) 2 s)
  | .hCntHi =>
    .ofRead (fun v t => { t with hloc := { t.hloc with h := v } }) (memRead (s.par.regmap.offset (.cntHi .chA)) 2 s)
  | .hDecide =>
    .cont { s with hloc := { s.hloc with branch := if s.pten then .recompute else .teardown } }
  | .hCompute =>
    let v := compose s.hloc.l s.hloc.h
    .cont { s with hloc := { s.hloc with s1 := slavePreload1 v s.ptofs, s2 := slavePreload2 v s.ptofs } }
  | .hCount => .cont { s with irqcnt := s.irqcnt + 1 }
  | .hSem => .cont (signalAll s)
  | .hNotify => .cont (notifyAll s)
  | .hEnd => .ended (s.leaveHandler .mine)

/-- Whether the `if` a micro-step stands under holds. -/
def Guard.holds (g : Guard) (s : State) : Bool :=
  match g with
  | .always => true
  | .readMode m => s.loc.m == m
  | .forceLoad c => (s.ch.get c).wrmode == 1
  | .arm => s.loc.arm
  | .edge => s.hloc.edge
  | .recompute => s.hloc.branch == .recompute
  | .teardown => s.hloc.branch == .teardown

/-- One micro-step: its action if its guard holds, else nothing. -/
def Micro.run (m : Micro) (s : State) : Flow := if m.guard.holds s then m.act.run s else .cont s

/-! ## Procedures shared by commands and handler -/

/-- SetIen(c, 0) without its masked section, as it runs inside the handler (R140, R170). -/
def ienOffSteps (c : Chan) (g : Guard) : List Micro :=
  [(Act.ienOff c).under g, (Act.pssZero c).under g, (Act.write (.intctl c) (.ictl c)).under g]

/-- SetIen(c, 1) (R140). -/
def ienOnSteps (c : Chan) (g : Guard) : List Micro :=
  [(Act.ienOn c).under g, (Act.write (.intctl c) (.ictl c)).under g]

/-- SetIen(c, b) in call context: the disabling branch is a masked section (R66 c, R140). -/
def setIenSteps (c : Chan) (b : Bool) : List Micro :=
  if b then ienOnSteps c .always
  else Act.maskOpen.always :: (ienOffSteps c .always ++ [Act.maskClose.always])

/-- A pair of register writes, low then high (R54, R62). -/
def writePair (lo hi : Reg) (vLo vHi : Src) (g : Guard) : List Micro :=
  [(Act.write lo vLo).under g, (Act.write hi vHi).under g]

/-- ForceNow(c, F, code) (R105). -/
def forceSteps (c : Chan) (f : ForceField) (g : Guard) : List Micro :=
  [(Act.write (.cntctl c) (.cctlForce c f)).under g, (Act.write (.cntctl c) (.cctl c)).under g]

/-- Recompute: r0 to r4 (R169). -/
def recomputeSteps : List Micro :=
  Act.hCompute.under .recompute ::
    (writePair (.preLo .chB) (.preHi .chB) .s1Lo .s1Hi .recompute ++
      writePair (.preLo .chC) (.preHi .chC) .s2Lo .s2Hi .recompute)

/-- The dummy preload PT_DUMMY = 0x7FFFFFFF (R3, R170). -/
def ptDummy : Word := 0x7FFFFFFF

/-- Teardown: t1 to t8 (R170). -/
def teardownSteps : List Micro :=
  writePair (.preLo .chB) (.preHi .chB) (.const (lo16 ptDummy)) (.const (hi16 ptDummy)) .teardown ++
    (writePair (.preLo .chC) (.preHi .chC) (.const (lo16 ptDummy)) (.const (hi16 ptDummy)) .teardown ++
      ([(Act.setXen .chA false).under .teardown, (Act.write (.intctl .chA) (.ictl .chA)).under .teardown] ++
        (ienOffSteps .chA .teardown ++ [(Act.setPtarmed false).under .teardown])))

/-- PerEdge: p0 to p3 and the branch p3 chose (R168). -/
def perEdgeSteps : List Micro :=
  [Act.hEdge.always, Act.hCntLo.under .edge, Act.hCntHi.under .edge, Act.hDecide.under .edge] ++
    (recomputeSteps ++ teardownSteps)

/-- The top-half handler, h1 to h11 (R233 to R241). -/
def handlerSteps : List Micro :=
  [Act.hPend0.always, Act.hPend1.always, Act.hFold.always, (Act.write .pend0 .maskLo).always,
    (Act.write .pend1 .maskHi).always, Act.hOwn.always] ++
    (perEdgeSteps ++ [Act.hCount.always, Act.hSem.always, Act.hNotify.always, Act.hEnd.always])

/-! ## Running under the schedule -/

/-- The two agents whose micro-step lists the state holds. -/
inductive Agent where
  | host | irq
  deriving DecidableEq, Repr

/-- The position of an agent: its remaining micro-steps. -/
def State.setPosition (s : State) (a : Agent) (ms : List Micro) : State :=
  match a with
  | .host => { s with prog := ms }
  | .irq => { s with hprog := ms }

/-- The agent at the head of a list of micro-steps takes the first of them. -/
def takeMicro (a : Agent) (m : Micro) (rest : List Micro) (s : State) : Out :=
  match m.run s with
  | .cont t => .next (t.setPosition a rest)
  | .ended t => .next (t.setPosition a [])
  | .blocked => .next (s.setPosition a (m :: rest))
  | .refused r => .refused r

/-- A list of micro-steps run with no other agent acting, to its end or to the micro-step that blocks. -/
def runSteps (a : Agent) : List Micro → State → Out
  | [], s => .next (s.setPosition a [])
  | m :: rest, s =>
    match m.run s with
    | .cont t => runSteps a rest t
    | .ended t => .next (t.setPosition a [])
    | .blocked => .next (s.setPosition a (m :: rest))
    | .refused r => .refused r

/-- The rest of a run in a quiet environment: the handler invocation in progress first, then the command (R65, R247). -/
def runQuiet (s : State) : Out :=
  match runSteps .irq s.hprog s with
  | .next t => runSteps .host t.prog t
  | .fault f => .fault f
  | .refused r => .refused r

/-- The agent in control takes its next micro-step: the handler while one runs, else the command (R65). -/
def goStep (s : State) : Out :=
  match s.hprog with
  | m :: rest => takeMicro .irq m rest s
  | [] =>
    match s.prog with
    | m :: rest => takeMicro .host m rest s
    | [] => .next s

/-- The IRQ agent asks for an invocation (R232): not enabled while `imask` or `inh` is set (it does not happen, log
5); NOT_MINE at once, with no other change, while not live; else the handler is entered. -/
def irqStep (s : State) : State :=
  if s.imask || s.inh then s
  else if s.live then s.enterHandler handlerSteps
  else { s with hport := .notMine }

/-- The timer of a waiting READ fires: while the semaphore is unavailable, Timeout (R111, R224). Any other moment: it
does not happen (log 5). -/
def timeoutStep (s : State) : State :=
  match s.hprog, s.prog with
  | [], ⟨g, .await c⟩ :: _ =>
    if g.holds s && !(s.ch.get c).rsem then { s.raise timedOut with prog := [] } else s
  | _, _ => s

/-- One entry of the schedule. -/
def eventStep (e : Event) (s : State) : Out :=
  match e with
  | .go => goStep s
  | .core e => .next (coreStep e s)
  | .irq => .next (irqStep s)
  | .timeout => .next (timeoutStep s)
  | .present p => .next { s with cfg := p }
  | .pause => .next s

/-- No command and no handler invocation is in progress. -/
def State.idle (s : State) : Bool := s.prog.isEmpty && s.hprog.isEmpty

/-- Run under a schedule until nothing is in progress, or a `pause`, or the schedule ends; from there on the
environment is quiet (logs 4, 8, 9). -/
def drive : List Event → State → Out
  | [], s => runQuiet { s with script := [] }
  | e :: es, s =>
    if s.idle then .next { s with script := e :: es }
    else if e = .pause then .next { s with script := es }
    else
      match eventStep e s with
      | .next t => drive es t
      | .fault f => .fault f
      | .refused r => .refused r

/-! ## Commands -/

/-- Checks (3) to (6) of R85, then the micro-steps (7): a failing check is the response and changes nothing else. -/
def accept (check : Option (BitVec 4)) (steps : List Micro) (s : State) : Out :=
  match check with
  | some code => .next (s.raise code)
  | none => drive s.script { s with prog := steps }

/-- A command other than INIT: no other command in progress (R64), live (R85 step 2, R92), then `accept`. -/
def command (check : Option (BitVec 4)) (steps : List Micro) (s : State) : Out :=
  if s.prog ≠ [] then .refused .overlap
  else if s.live = false then .refused .notLive
  else accept check steps s

/-- A command with no result: RDATA = 0 (R80). Its rule lists no micro-step that returns; the model gives the response
one of its own after the last, DESIGN CHOICE: between the two the command is still in progress and other agents may act
(log 8). -/
def setter (check : Option (BitVec 4)) (steps : List Micro) (s : State) : Out :=
  command check (steps ++ [(Act.ret .zero).always]) s

/-- A getter: one micro-step, no check (R183). -/
def getter (q : Query) (s : State) : Out := command none [(Act.ret q).always] s

end Sys2Proof.Machine
end

