-- ==== Sys2Proof/Machine/Counter.lean ====
section
/-!
DEFINITION. Sys2Proof/Machine/Counter.lean: the counter control commands of 40_counter_control.md (spec rules R100 to
R114). Each has its list of micro-steps, which INIT runs too (R206), and its meaning.
-/

namespace Sys2Proof.Machine

/-- "Every setter of a field of the count-control word ends with `MemWrite(A_CNTCTL(c), 2, CCTL(c))`" (R100). -/
def rewriteCctl (c : Chan) : Micro := (Act.write (.cntctl c) (.cctl c)).always

/-- SET.MODE, u1 and u2 (R101). -/
def setModeSteps (c : Chan) (d : Word) : List Micro := [(Act.setMode c (d.truncate 4)).always, rewriteCctl c]

/-- SET.MODE ch, mode (R101). -/
def execSetMode (c : Chan) (d : Word) (s : State) : Out := setter (require (modeOk d)) (setModeSteps c d) s

/-- SET.LOAD: the immediate code forces, any other is persisted (R102). -/
def setLoadSteps (c : Chan) (d : Word) : List Micro :=
  if d = 2 then forceSteps c .load .always else [(Act.setLdc c (d.truncate 2)).always, rewriteCctl c]

/-- SET.LOAD ch, cond (R102). -/
def execSetLoad (c : Chan) (d : Word) (s : State) : Out := setter (require (upTo 3 d)) (setLoadSteps c d) s

/-- SET.CLEAR (R103). -/
def setClearSteps (c : Chan) (d : Word) : List Micro :=
  if d = 2 then forceSteps c .clr .always else [(Act.setClc c (d.truncate 2)).always, rewriteCctl c]

/-- SET.CLEAR ch, cond (R103). -/
def execSetClear (c : Chan) (d : Word) (s : State) : Out := setter (require (upTo 3 d)) (setClearSteps c d) s

/-- SET.STORE: the immediate code is 1 (R18, R104). -/
def setStoreSteps (c : Chan) (d : Word) : List Micro :=
  if d = 1 then forceSteps c .sto .always else [(Act.setStc c (d.truncate 2)).always, rewriteCctl c]

/-- SET.STORE ch, cond (R104). -/
def execSetStore (c : Chan) (d : Word) (s : State) : Out := setter (require (upTo 2 d)) (setStoreSteps c d) s

/-- SET.TSTART (R106). -/
def setTstartSteps (c : Chan) (d : Word) : List Micro := [(Act.setTst c (d.truncate 1)).always, rewriteCctl c]

/-- SET.TSTART ch, cond (R106). -/
def execSetTstart (c : Chan) (d : Word) (s : State) : Out := setter (require (upTo 1 d)) (setTstartSteps c d) s

/-- SET.COMPA, u1 to u3 (R107). -/
def setCompaSteps (c : Chan) (d : Word) : List Micro :=
  (Act.setCmpA c d).always :: writePair (.cmpaLo c) (.cmpaHi c) (.const (lo16 d)) (.const (hi16 d)) .always

/-- SET.COMPA ch, value (R107). -/
def execSetCompa (c : Chan) (d : Word) (s : State) : Out := setter none (setCompaSteps c d) s

/-- SET.COMPB, u1 to u3 (R108). -/
def setCompbSteps (c : Chan) (d : Word) : List Micro :=
  (Act.setCmpB c d).always :: writePair (.cmpbLo c) (.cmpbHi c) (.const (lo16 d)) (.const (hi16 d)) .always

/-- SET.COMPB ch, value (R108). -/
def execSetCompb (c : Chan) (d : Word) (s : State) : Out := setter none (setCompbSteps c d) s

/-- FREQSTART ch: only in mode 5, frequency-measure; one write of `CCTL(c)` with TB = 1 (R109). -/
def execFreqstart (c : Chan) (s : State) : Out :=
  setter (require ((s.ch.get c).mode == 5)) [(Act.write (.cntctl c) (.cctlTb c)).always] s

/-- WRITE, u1 and u2, then the force-load if `wrmode = 1` (R110). -/
def writeSteps (c : Chan) (d : Word) : List Micro :=
  writePair (.preLo c) (.preHi c) (.const (lo16 d)) (.const (hi16 d)) .always ++ forceSteps c .load (.forceLoad c)

/-- WRITE ch, value (R110). -/
def execWrite (c : Chan) (d : Word) (s : State) : Out := setter none (writeSteps c d) s

/-- READ, u0 to u5 (R111). -/
def readSteps (c : Chan) : List Micro :=
  [(Act.readMode c).always, (Act.await c).under (.readMode 1)] ++
    (forceSteps c .sto (.readMode 2) ++
      [Act.maskOpen.always, (Act.readLo c).always, (Act.readHi c).always, Act.maskClose.always,
        (Act.ret .count).always])

/-- READ ch (R111). -/
def execRead (c : Chan) (s : State) : Out := command none (readSteps c) s

/-- SET.READMODE, u1 (R112). -/
def setReadmodeSteps (c : Chan) (d : Word) : List Micro := [(Act.setRdmode c (d.truncate 2)).always]

/-- SET.READMODE ch, m (R112). -/
def execSetReadmode (c : Chan) (d : Word) (s : State) : Out := setter (require (upTo 2 d)) (setReadmodeSteps c d) s

/-- SET.READTOUT, u1 (R113). -/
def setReadtoutSteps (c : Chan) (d : Word) : List Micro := [(Act.setRdtout c d).always]

/-- SET.READTOUT ch, ms (R113). -/
def execSetReadtout (c : Chan) (d : Word) (s : State) : Out := setter none (setReadtoutSteps c d) s

/-- SET.WRITEMODE, u1 (R114). -/
def setWritemodeSteps (c : Chan) (d : Word) : List Micro := [(Act.setWrmode c (d.truncate 1)).always]

/-- SET.WRITEMODE ch, m (R114). -/
def execSetWritemode (c : Chan) (d : Word) (s : State) : Out := setter (require (upTo 1 d)) (setWritemodeSteps c d) s

end Sys2Proof.Machine
end

