-- ==== Sys2Proof/Machine/Interrupt.lean ====
section
/-!
DEFINITION. Sys2Proof/Machine/Interrupt.lean: the interrupt control commands of 41_interrupt_control.md (spec rules
R130 to R140).
-/

namespace Sys2Proof.Machine

/-- "Each setter updates the corresponding bitfield of the channel's interrupt-control shadow word and writes it to
hardware": `MemWrite(A_INTCTL(c), 2, ICTL(c))` (R131 to R134). -/
def rewriteIctl (c : Chan) : Micro := (Act.write (.intctl c) (.ictl c)).always

/-- SET.IRQEN ch, flag: SetIen(c, DATA) (R130, R140). -/
def setIrqenSteps (c : Chan) (d : Word) : List Micro := setIenSteps c (asBool d)

/-- SET.IRQEN (R130). -/
def execSetIrqen (c : Chan) (d : Word) (s : State) : Out := setter (require (upTo 1 d)) (setIrqenSteps c d) s

/-- SET.COMPIRQ, u1 and u2 (R131). -/
def setCompirqSteps (c : Chan) (d : Word) : List Micro := [(Act.setCmpirq c (d.truncate 3)).always, rewriteIctl c]

/-- SET.COMPIRQ ch, cond (R131). -/
def execSetCompirq (c : Chan) (d : Word) (s : State) : Out := setter (require (upTo 5 d)) (setCompirqSteps c d) s

/-- SET.CBIRQ, u1 and u2 (R132). -/
def setCbirqSteps (c : Chan) (d : Word) : List Micro := [(Act.setCbirq c (d.truncate 2)).always, rewriteIctl c]

/-- SET.CBIRQ ch, cond (R132). -/
def execSetCbirq (c : Chan) (d : Word) (s : State) : Out := setter (require (upTo 3 d)) (setCbirqSteps c d) s

/-- SET.LBIRQ, u1 and u2 (R133). -/
def setLbirqSteps (c : Chan) (d : Word) : List Micro := [(Act.setLben c (asBool d)).always, rewriteIctl c]

/-- SET.LBIRQ ch, flag (R133). -/
def execSetLbirq (c : Chan) (d : Word) (s : State) : Out := setter (require (upTo 1 d)) (setLbirqSteps c d) s

/-- SET.XIRQ, u1 and u2 (R134). -/
def setXirqSteps (c : Chan) (d : Word) : List Micro := [(Act.setXen c (asBool d)).always, rewriteIctl c]

/-- SET.XIRQ ch, flag (R134). -/
def execSetXirq (c : Chan) (d : Word) (s : State) : Out := setter (require (upTo 1 d)) (setXirqSteps c d) s

/-- GET.IRQSTAT ch: the shadow if enabled, else the live flags, in one masked section; clears nothing (R135). -/
def execGetIrqstat (c : Chan) (s : State) : Out :=
  command none
    [Act.maskOpen.always, (Act.statQuery c).always, Act.maskClose.always, (Act.ret .status).always] s

/-- CLR.IRQSTAT ch, mask: clears the masked bits of the shadow if enabled, else of the live flags (R136). -/
def execClrIrqstat (c : Chan) (d : Word) (s : State) : Out :=
  setter (require (upTo 0x1F d))
    [Act.maskOpen.always, (Act.statClear c (d.truncate 5)).always, Act.maskClose.always] s

/-- The state check of SIGINST: SignalConflict(installed) if the slot is not empty (R137). -/
def slotEmptyCheck (o : Option Word) : Option (BitVec 4) :=
  match o with
  | some _ => some signalInstalled
  | none => none

/-- The state check of SIGREM: SignalConflict(not installed) if the slot is empty (R138). -/
def slotFullCheck (o : Option Word) : Option (BitVec 4) :=
  match o with
  | some _ => none
  | none => some signalNotInstalled

/-- SIGINST ch, kind, token: the KIND check, then the slot check, then `sig[k] <- DATA` (R137). -/
def execSiginst (c : Chan) (kind : BitVec 3) (d : Word) (s : State) : Out :=
  match kindOfField kind with
  | none => setter (some invalidParameter) [] s
  | some k => setter (slotEmptyCheck ((s.ch.get c).sig.get k)) [(Act.setSig c k (some d)).always] s

/-- SIGREM ch, kind: the KIND check, then the slot check, then `sig[k] <- empty` (R138). -/
def execSigrem (c : Chan) (kind : BitVec 3) (s : State) : Out :=
  match kindOfField kind with
  | none => setter (some invalidParameter) [] s
  | some k => setter (slotFullCheck ((s.ch.get c).sig.get k)) [(Act.setSig c k none).always] s

/-- GET.IRQCNT (R139). -/
def execGetIrqcnt (s : State) : Out := getter .irqcnt s

end Sys2Proof.Machine
end

