-- ==== Sys2Proof/Machine/Pretrigger.lean ====
section
/-!
DEFINITION. Sys2Proof/Machine/Pretrigger.lean: the pretrigger commands and the arm sequence of 42_pretrigger.md (spec
rules R161 to R167). The per-edge update is in Machine/Ops.lean, with the handler that runs it.
-/

namespace Sys2Proof.Machine

/-- The comparator value CMP_NEVER = 0xFFFFFFFF (R3). -/
def cmpNever : Word := 0xFFFFFFFF

/-- Arm part 1, the reference channel: a1 to a9 (R163). -/
def armRefSteps : List Micro :=
  writePair (.preLo .chA) (.preHi .chA) (.const 0) (.const 0) .arm ++
    ((Act.setCmpA .chA cmpNever).under .arm ::
      (writePair (.cmpaLo .chA) (.cmpaHi .chA) (.const (lo16 cmpNever)) (.const (hi16 cmpNever)) .arm ++
        [Act.orOcfg.under .arm, (Act.write .outcfg .ocfg).under .arm, Act.armRef.under .arm,
          (Act.write (.cntctl .chA) (.cctl .chA)).under .arm]))

/-- Arm part 2, one slave: b1 to b7, b4 and b5 in a masked section (R164). -/
def armSlaveSteps (c : Chan) : List Micro :=
  (Act.setCmpA c 0).under .arm ::
    (writePair (.cmpaLo c) (.cmpaHi c) (.const 0) (.const 0) .arm ++
      [Act.maskOpen.under .arm, (Act.armMask c).under .arm, (Act.write (.intctl c) (.ictl c)).under .arm,
        Act.maskClose.under .arm, (Act.armSlave c).under .arm, (Act.write (.cntctl c) (.cctl c)).under .arm])

/-- Arm part 3, the output registers: o1 to o4 (R166). -/
def armOutputSteps : List Micro :=
  [Act.armOctl0.under .arm, (Act.write .outctl0 .octl0).under .arm, Act.armOctl1.under .arm,
    (Act.write .outctl1 .octl1).under .arm]

/-- Arm part 4, the interrupt enables of channel A: e1 to e3 (R167). -/
def armEnableSteps : List Micro :=
  ienOnSteps .chA .arm ++ [(Act.setXen .chA true).under .arm, (Act.write (.intctl .chA) (.ictl .chA)).under .arm]

/-- Arm: its parts in order, `ptarmed <- 1` after part 3 (R165). -/
def armSteps : List Micro :=
  armRefSteps ++ (armSlaveSteps .chB ++ (armSlaveSteps .chC ++ (armOutputSteps ++
    ((Act.setPtarmed true).under .arm :: armEnableSteps))))

/-- SET.PTOFS ticks: clamped, never rejected (R161). -/
def execSetPtofs (d : Word) (s : State) : Out := setter none [(Act.setPtofs (clampOffset d)).always] s

/-- SET.PTEN flag: the flag first, then the arm sequence on a false to true transition (R162). -/
def execSetPten (d : Word) (s : State) : Out :=
  setter (require (upTo 1 d)) ((Act.setPten (asBool d)).always :: armSteps) s

/-- GET.PTOFS (R199). -/
def execGetPtofs (s : State) : Out := getter .ptofs s

/-- GET.PTEN: the request flag, not `ptarmed` (R200). -/
def execGetPten (s : State) : Out := getter .pten s

end Sys2Proof.Machine
end

