-- ==== Sys2Proof/Machine/Global.lean ====
section
/-!
DEFINITION. Sys2Proof/Machine/Global.lean: the device-global setters, the getters, the block calls, INIT and EXIT of
43_global_and_query.md (spec rules R180 to R208).
-/

namespace Sys2Proof.Machine

/-! ## Device-global setters -/

/-- SET.OUTMODE, u1 to u4 (R180). -/
def setOutmodeSteps (d : Word) : List Micro :=
  [(Act.setOctl0 (lo16 d)).always, (Act.write .outctl0 .octl0).always, (Act.setOctl1 (hi16 d)).always,
    (Act.write .outctl1 .octl1).always]

/-- SET.OUTMODE word (R180). -/
def execSetOutmode (d : Word) (s : State) : Out := setter none (setOutmodeSteps d) s

/-- SET.OUTSET, u1 and u2 (R181). -/
def setOutsetSteps (d : Word) : List Micro :=
  [(Act.setOcfg (d.truncate 16)).always, (Act.write .outcfg .ocfg).always]

/-- SET.OUTSET v (R181). -/
def execSetOutset (d : Word) (s : State) : Out := setter (require (upTo 15 d)) (setOutsetSteps d) s

/-- SET.SELFTEST, u1 and u2 (R182). -/
def setSelftestSteps (d : Word) : List Micro :=
  [(Act.setStest (d.truncate 16)).always, (Act.write .selftest .stest).always]

/-- SET.SELFTEST v: out of range is InvalidParameter; in range and nonzero has no meaning, "refuses the command for
any nonzero DATA" (R182, U6). The checks of R64 and R92 come first, as for every command. -/
def execSetSelftest (d : Word) (s : State) : Out :=
  if s.prog = [] ∧ s.live = true ∧ upTo 0xFFFF d = true ∧ d ≠ 0 then .refused .selftestNonzero
  else setter (require (upTo 0xFFFF d)) (setSelftestSteps d) s

/-! ## Getters (R183) -/

/-- GET.MODE ch (R184). -/
def execGetMode (c : Chan) (s : State) : Out := getter (.mode c) s
/-- GET.LOAD ch (R185). -/
def execGetLoad (c : Chan) (s : State) : Out := getter (.ldc c) s
/-- GET.CLEAR ch (R186). -/
def execGetClear (c : Chan) (s : State) : Out := getter (.clc c) s
/-- GET.STORE ch (R187). -/
def execGetStore (c : Chan) (s : State) : Out := getter (.stc c) s
/-- GET.TSTART ch (R188). -/
def execGetTstart (c : Chan) (s : State) : Out := getter (.tst c) s
/-- GET.COMPA ch (R189). -/
def execGetCompa (c : Chan) (s : State) : Out := getter (.cmpA c) s
/-- GET.COMPB ch (R190). -/
def execGetCompb (c : Chan) (s : State) : Out := getter (.cmpB c) s
/-- GET.READMODE ch (R191). -/
def execGetReadmode (c : Chan) (s : State) : Out := getter (.rdmode c) s
/-- GET.READTOUT ch (R192). -/
def execGetReadtout (c : Chan) (s : State) : Out := getter (.rdtout c) s
/-- GET.WRITEMODE ch (R193). -/
def execGetWritemode (c : Chan) (s : State) : Out := getter (.wrmode c) s
/-- GET.IRQEN ch (R194). -/
def execGetIrqen (c : Chan) (s : State) : Out := getter (.ien c) s
/-- GET.COMPIRQ ch (R195). -/
def execGetCompirq (c : Chan) (s : State) : Out := getter (.cmpirq c) s
/-- GET.CBIRQ ch (R196). -/
def execGetCbirq (c : Chan) (s : State) : Out := getter (.cbirq c) s
/-- GET.LBIRQ ch (R197). -/
def execGetLbirq (c : Chan) (s : State) : Out := getter (.lben c) s
/-- GET.XIRQ ch (R198). -/
def execGetXirq (c : Chan) (s : State) : Out := getter (.xen c) s
/-- GET.OUTMODE (R201). -/
def execGetOutmode (s : State) : Out := getter .outmode s
/-- GET.OUTSET (R202). -/
def execGetOutset (s : State) : Out := getter .outset s
/-- GET.SELFTEST: the shadow (R208). -/
def execGetSelftest (s : State) : Out := getter .selftest s

/-! ## Block calls -/

/-- BLKREAD ch: always UnsupportedOperation, at step (3) of R85 (R203). -/
def execBlkread (_c : Chan) (s : State) : Out := setter (some unsupportedOperation) [] s

/-- BLKWRITE ch: always UnsupportedOperation, at step (3) of R85 (R204). -/
def execBlkwrite (_c : Chan) (s : State) : Out := setter (some unsupportedOperation) [] s

/-! ## Bring-up and shutdown -/

/-- i3 of INIT for one channel (R206). -/
def initChanSteps (c : Chan) (g : CfgChan) : List Micro :=
  setModeSteps c g.mode ++ (setLoadSteps c g.ldc ++ (setClearSteps c g.clc ++ (setStoreSteps c g.stc ++
    (setTstartSteps c g.tst ++ (setCompaSteps c g.cmpA ++ (setCompbSteps c g.cmpB ++ (setCompirqSteps c g.cmpirq ++
      (setCbirqSteps c g.cbirq ++ (setLbirqSteps c g.lben ++ (setXirqSteps c g.xen ++ (setReadmodeSteps c g.rdmode ++
        (setReadtoutSteps c g.rdtout ++ setWritemodeSteps c g.wrmode))))))))))))

/-- i1 to i6 of INIT (R206). -/
def initSteps (p : CfgPort) : List Micro :=
  [Act.zeroCtl.always, (Act.write .selftest (.const 0)).always] ++
    (initChanSteps .chA p.chans.a ++ (initChanSteps .chB p.chans.b ++ (initChanSteps .chC p.chans.c ++
      (initChanSteps .chD p.chans.d ++ (setOutmodeSteps p.outMode ++ (setOutsetSteps p.outSet ++
        (setIrqenSteps .chA p.chans.a.ien ++ (setIrqenSteps .chB p.chans.b.ien ++
          (setIrqenSteps .chC p.chans.c.ien ++ (setIrqenSteps .chD p.chans.d.ien ++
            [Act.goLive.always]))))))))))

/-- INIT: no other command in progress (R64), not live (R92), the four checks on the CFG port, then i1 to i6 (R206). -/
def execInit (s : State) : Out :=
  if s.prog ≠ [] then .refused .overlap
  else if s.live = true then .refused .alreadyLive
  else accept (initCheck s.cfg) (initSteps s.cfg ++ [(Act.ret .zero).always]) s

/-- x2 of EXIT for one channel (R207). -/
def exitChanSteps (c : Chan) : List Micro :=
  [(Act.write (.cntctl c) (.const 0)).always, (Act.write (.intctl c) (.const 0)).always]

/-- x1 to x4 of EXIT (R207). In x1 CTL becomes as at power-on and the pretrigger Disabled (R47, R160, R263). The rules
name no value and no moment for the rest of CTL: DESIGN CHOICE, the model's power-on values, in x1 (log 22). -/
def exitSteps : List Micro :=
  Act.goDown.always ::
    (exitChanSteps .chA ++ (exitChanSteps .chB ++ (exitChanSteps .chC ++ (exitChanSteps .chD ++
      [(Act.write .pend0 .pendMask0).always, (Act.write .pend1 .pendMask1).always]))))

/-- EXIT (R207). -/
def execExit (s : State) : Out := setter none exitSteps s

end Sys2Proof.Machine
end

