-- ==== Sys2Proof/Machine/Dispatch.lean ====
section
/-!
DEFINITION. Sys2Proof/Machine/Dispatch.lean: one arm for each command.
-/

namespace Sys2Proof.Machine

/-- The meaning of each command (R84, R85). -/
def exec (i : Instr) (s : State) : Host.Outcome State Fault Refusal :=
  match i with
  | .setMode c d => Sys2Proof.Machine.execSetMode c d s
  | .getMode c => Sys2Proof.Machine.execGetMode c s
  | .setLoad c d => Sys2Proof.Machine.execSetLoad c d s
  | .getLoad c => Sys2Proof.Machine.execGetLoad c s
  | .setClear c d => Sys2Proof.Machine.execSetClear c d s
  | .getClear c => Sys2Proof.Machine.execGetClear c s
  | .setStore c d => Sys2Proof.Machine.execSetStore c d s
  | .getStore c => Sys2Proof.Machine.execGetStore c s
  | .setTstart c d => Sys2Proof.Machine.execSetTstart c d s
  | .getTstart c => Sys2Proof.Machine.execGetTstart c s
  | .setCompa c d => Sys2Proof.Machine.execSetCompa c d s
  | .getCompa c => Sys2Proof.Machine.execGetCompa c s
  | .setCompb c d => Sys2Proof.Machine.execSetCompb c d s
  | .getCompb c => Sys2Proof.Machine.execGetCompb c s
  | .setReadmode c d => Sys2Proof.Machine.execSetReadmode c d s
  | .getReadmode c => Sys2Proof.Machine.execGetReadmode c s
  | .setReadtout c d => Sys2Proof.Machine.execSetReadtout c d s
  | .getReadtout c => Sys2Proof.Machine.execGetReadtout c s
  | .setWritemode c d => Sys2Proof.Machine.execSetWritemode c d s
  | .getWritemode c => Sys2Proof.Machine.execGetWritemode c s
  | .freqstart c => Sys2Proof.Machine.execFreqstart c s
  | .setIrqen c d => Sys2Proof.Machine.execSetIrqen c d s
  | .getIrqen c => Sys2Proof.Machine.execGetIrqen c s
  | .setCompirq c d => Sys2Proof.Machine.execSetCompirq c d s
  | .getCompirq c => Sys2Proof.Machine.execGetCompirq c s
  | .setCbirq c d => Sys2Proof.Machine.execSetCbirq c d s
  | .getCbirq c => Sys2Proof.Machine.execGetCbirq c s
  | .setLbirq c d => Sys2Proof.Machine.execSetLbirq c d s
  | .getLbirq c => Sys2Proof.Machine.execGetLbirq c s
  | .setXirq c d => Sys2Proof.Machine.execSetXirq c d s
  | .getXirq c => Sys2Proof.Machine.execGetXirq c s
  | .clrIrqstat c d => Sys2Proof.Machine.execClrIrqstat c d s
  | .getIrqstat c => Sys2Proof.Machine.execGetIrqstat c s
  | .siginst c k d => Sys2Proof.Machine.execSiginst c k d s
  | .sigrem c k => Sys2Proof.Machine.execSigrem c k s
  | .setPtofs d => Sys2Proof.Machine.execSetPtofs d s
  | .getPtofs => Sys2Proof.Machine.execGetPtofs s
  | .setPten d => Sys2Proof.Machine.execSetPten d s
  | .getPten => Sys2Proof.Machine.execGetPten s
  | .setOutmode d => Sys2Proof.Machine.execSetOutmode d s
  | .getOutmode => Sys2Proof.Machine.execGetOutmode s
  | .setOutset d => Sys2Proof.Machine.execSetOutset d s
  | .getOutset => Sys2Proof.Machine.execGetOutset s
  | .setSelftest d => Sys2Proof.Machine.execSetSelftest d s
  | .getSelftest => Sys2Proof.Machine.execGetSelftest s
  | .getIrqcnt => Sys2Proof.Machine.execGetIrqcnt s
  | .write c d => Sys2Proof.Machine.execWrite c d s
  | .read c => Sys2Proof.Machine.execRead c s
  | .blkwrite c => Sys2Proof.Machine.execBlkwrite c s
  | .blkread c => Sys2Proof.Machine.execBlkread c s
  | .init => Sys2Proof.Machine.execInit s
  | .exit => Sys2Proof.Machine.execExit s

end Sys2Proof.Machine
end

