-- ==== Sys2Proof/Machine/Step.lean ====
section
/-!
DEFINITION. Sys2Proof/Machine/Step.lean: one step of the block. With a command or a handler invocation in progress the
step goes on with it; else the schedule says who acts: an environment event, or HOST, whose next command is decoded and
executed (assumption logs 4, 8, 9).
-/

namespace Sys2Proof.Machine

/-- HOST's turn: the next command of `inbox` is taken from the port, decoded (spec rule R85 step 1) and executed; a
command word that is no command is answered UnsupportedOperation (R86, R205). With no command to issue the block
waits. -/
def hostTurn (s : State) : Out :=
  match s.inbox with
  | [] => .next s
  | q :: rest =>
    match decode q.cw q.data with
    | .ok i => exec i { s with inbox := rest }
    | .error _ => .next ({ s with inbox := rest }.raise unsupportedOperation)

/-- One step of the block. -/
def step (s : State) : Host.Outcome State Fault Refusal :=
  if s.idle then
    match s.script with
    | [] => hostTurn s
    | .go :: es => hostTurn { s with script := es }
    | .pause :: es => .next { s with script := es }
    | e :: es =>
      match eventStep e s with
      | .next t => drive es t
      | .fault f => .fault f
      | .refused r => .refused r
  else drive s.script s

/-- `s` with the command whose bits are `w` presented as HOST's next command, in an idle block with a quiet
environment, inside the live window that R85 step (2) asks for: open for every command but INIT, closed for INIT (log
10). Bits 15:0 of `w` are CW, bits 47:16 are DATA (log 11). -/
def State.withFetchWord (s : State) (nbits w : Nat) : State :=
  { s with
    inbox := [{ cw := tableCw nbits w, data := tableData nbits w }]
    script := [], prog := [], hprog := [], inh := false, imask := false
    live := tableCw nbits w != wordG 0x7E }

end Sys2Proof.Machine
end

