-- ==== Sys2Proof/Safety.lean ====
section
/-!
DEFINITION. Sys2Proof/Safety.lean: the terms the statements are made in: a block that is ready for a command in a
quiet environment, what the commands and the handler leave, the domains of the record's fields and the mirror
invariants of spec rule R44, runs, and the command words of the opcode table.
-/

namespace Sys2Proof.Machine

/-! ## Ready for a command -/

/-- The block is live, nothing is in progress, no masked section is open, and no environment event is scheduled: the
condition under which a command "runs undisturbed". The open parameters are well-formed (R4). -/
structure State.Ready (s : State) : Prop where
  wf : s.par.Wf
  live : s.live = true
  noCommand : s.prog = []
  noHandler : s.hprog = []
  quiet : s.script = []
  unmasked : s.imask = false
  outside : s.inh = false

/-! ## What a command does -/

/-- A command can be accepted: the block is live and no command is in progress (R64, R85 step 2). -/
structure State.Accepts (s : State) : Prop where
  live : s.live = true
  noCommand : s.prog = []

/-- The command passes its checks and performs this list of micro-steps, under whatever schedule (R65, R85 step 7). -/
def Performs (i : Instr) (ms : List Micro) (s : State) : Prop := exec i s = drive s.script { s with prog := ms }

/-- One value for each channel, given by a function. -/
def quadOf {α : Type} (f : Chan → α) : Quad α := { a := f .chA, b := f .chB, c := f .chC, d := f .chD }

/-- The record of `c` changed by `f`, and CNTCTL[c] rewritten with the new `CCTL(c)` (R100). -/
def State.setCctl (s : State) (c : Chan) (f : ChanRec → ChanRec) : State :=
  (s.modRec c f).modHw c fun h => { h with cntctl := cctlWord s.par.cctl (f (s.ch.get c)) }

/-- The record of `c` changed by `f`, and INTCTL[c] rewritten with the new `ICTL(c)`. -/
def State.setIctl (s : State) (c : Chan) (f : ChanRec → ChanRec) : State :=
  (s.modRec c f).modHw c fun h => { h with intctl := ictlWord s.par.ictl (f (s.ch.get c)) }

/-- `s` with the CTL of `t` in place of its own, but for `live` (R10, R15, R29). -/
def State.withCtl (s t : State) : State :=
  { s with
    ch := t.ch, octl0 := t.octl0, octl1 := t.octl1, ocfg := t.ocfg, stest := t.stest, irqcnt := t.irqcnt,
    ptofs := t.ptofs, pten := t.pten, ptarmed := t.ptarmed }

/-- Some CORE events one after another (R39, R41, R42). -/
def coreEvents (es : List CoreEvent) (s : State) : State := es.foldl (fun t e => coreStep e t) s

/-! ## After INIT (R46) -/

/-- The channel record INIT leaves for the configuration `g`: "the CFG value, or 0 if the CFG value is" immediate. -/
def initRec (g : CfgChan) : ChanRec :=
  { mode := g.mode.truncate 4
    ldc := if g.ldc = 2 then 0 else g.ldc.truncate 2
    clc := if g.clc = 2 then 0 else g.clc.truncate 2
    stc := if g.stc = 1 then 0 else g.stc.truncate 2
    tst := g.tst.truncate 1
    cmpA := g.cmpA, cmpB := g.cmpB
    ien := asBool g.ien
    cmpirq := g.cmpirq.truncate 3
    cbirq := g.cbirq.truncate 2
    lben := asBool g.lben, xen := asBool g.xen
    pss := 0
    rdmode := g.rdmode.truncate 2
    rdtout := g.rdtout
    wrmode := g.wrmode.truncate 1
    sig := .empty, rsem := false }

/-- The counter after the force actions of INIT: the load before the clear (R206 i3). -/
def initCount (g : CfgChan) (h : HwChan) : Word :=
  if g.clc = 2 then 0 else if g.ldc = 2 then compose h.preLo h.preHi else h.cnt

/-- The hardware INIT leaves: every mirrored register equal to its mirror, `pre`, `pend` and `tb` unchanged (R46). -/
def initHw (p : Params) (g : CfgChan) (h : HwChan) : HwChan :=
  { h with
    cntctl := cctlWord p.cctl (initRec g)
    cmpaLo := lo16 g.cmpA, cmpaHi := hi16 g.cmpA
    cmpbLo := lo16 g.cmpB, cmpbHi := hi16 g.cmpB
    intctl := ictlWord p.ictl (initRec g)
    cnt := initCount g h
    lat := if g.stc = 1 then initCount g h else h.lat }

/-- The state after a successful INIT in a quiet environment (R46). -/
def State.initialised (s : State) : State :=
  { s with
    ch := quadOf fun c => initRec (s.cfg.chans.get c)
    hw := quadOf fun c => initHw s.par (s.cfg.chans.get c) (s.hw.get c)
    octl0 := lo16 s.cfg.outMode, octl1 := hi16 s.cfg.outMode
    outctl0 := lo16 s.cfg.outMode, outctl1 := hi16 s.cfg.outMode
    ocfg := s.cfg.outSet.truncate 16, outcfg := s.cfg.outSet.truncate 16
    stest := 0, selftest := 0
    irqcnt := 0, ptofs := 25, pten := false, ptarmed := false, live := true }

/-! ## After the arm sequence (R163 to R167) -/

/-- Channel A after the arm sequence. -/
def armedRefRec (r : ChanRec) : ChanRec :=
  { r with cmpA := 0xFFFFFFFF, mode := 10, stc := 2, clc := 1, ldc := 0, tst := 0, ien := true, xen := true }

/-- A slave after the arm sequence. -/
def armedSlaveRec (r : ChanRec) : ChanRec :=
  { r with cmpA := 0, cmpirq := 3, ien := false, pss := 0, mode := 10, ldc := 1, clc := 0, stc := 0, tst := 0 }

/-- The hardware of a channel after the arm sequence wrote its comparator A, CNTCTL and INTCTL. -/
def armedHw (p : Params) (r : ChanRec) (h : HwChan) : HwChan :=
  { h with
    cmpaLo := lo16 r.cmpA, cmpaHi := hi16 r.cmpA
    cntctl := cctlWord p.cctl r, intctl := ictlWord p.ictl r }

/-- The state after SET.PTEN 1 with `pten = 0`, in a quiet environment. -/
def State.armed (s : State) : State :=
  { s with
    pten := true, ptarmed := true
    ch :=
      { a := armedRefRec s.ch.a
        b := armedSlaveRec s.ch.b
        c := armedSlaveRec s.ch.c
        d := s.ch.d }
    hw :=
      { a := { armedHw s.par (armedRefRec s.ch.a) s.hw.a with preLo := 0, preHi := 0 }
        b := armedHw s.par (armedSlaveRec s.ch.b) s.hw.b
        c := armedHw s.par (armedSlaveRec s.ch.c) s.hw.c
        d := s.hw.d }
    ocfg := s.ocfg ||| s.par.armOutcfgOr, outcfg := s.ocfg ||| s.par.armOutcfgOr
    octl0 := s.par.armOutctl0, outctl0 := s.par.armOutctl0
    octl1 := s.par.armOutctl1, outctl1 := s.par.armOutctl1 }

/-! ## After a handler invocation (R233 to R241) -/

/-- The flags of `c` that an invocation folds and clears: those pending, if the channel is enabled (R234, R235). -/
def fired (s : State) (c : Chan) : BitVec 5 := if (s.ch.get c).ien then (s.hw.get c).pend else 0

/-- The invocation is a qualifying interrupt: `m != 0` at h6 (R236). -/
def qualifies (s : State) : Bool := Chan.all.any fun c => fired s c != 0

/-- h1 to h5 in a quiet environment: the shadow of an enabled channel accumulates its flags, that of a disabled one
becomes zero (R234); exactly the folded flags are cleared in hardware (R235). -/
def State.folded (s : State) : State :=
  { s with
    ch := quadOf fun c =>
      { s.ch.get c with pss := if (s.ch.get c).ien then (s.ch.get c).pss ||| (s.hw.get c).pend else 0 }
    hw := quadOf fun c => { s.hw.get c with pend := (s.hw.get c).pend &&& ~~~(fired s c) }
    draws := s.draws + 2 }

/-- The preload registers of channels B and C written with `x` and `y`. -/
def State.slavePreloads (s : State) (x y : Word) : State :=
  (s.modHw .chB fun h => { h with preLo := lo16 x, preHi := hi16 x }).modHw .chC fun h =>
    { h with preLo := lo16 y, preHi := hi16 y }

/-- Recompute in a quiet environment (R169). -/
def State.recomputed (s : State) : State :=
  s.slavePreloads ((s.hw.get .chA).lat - s.ptofs) ((s.hw.get .chA).lat / 2 - s.ptofs)

/-- Teardown in a quiet environment (R170). -/
def State.tornDown (s : State) : State :=
  { (s.slavePreloads 0x7FFFFFFF 0x7FFFFFFF).setIctl .chA (fun r => { r with xen := false, ien := false, pss := 0 }) with
    ptarmed := false }

/-- The semaphore of `c` is signalled: a folded ready flag and `rdmode = 1` (R238). -/
def semaphoreDue (s : State) (c : Chan) : Bool := (fired s c).getLsbD 0 && (s.ch.get c).rdmode == 1

/-- The semaphore events of an invocation, channels in order (R238, R242). -/
def semEvents (s : State) : List OutEvent := (Chan.all.filter (semaphoreDue s)).map .semSignal

/-- The notification of slot (c, k): a folded flag of kind `k` and a token in the slot (R240). -/
def notification (s : State) (c : Chan) (k : Kind) : Option OutEvent :=
  if (fired s c).getLsbD k.index then ((s.ch.get c).sig.get k).map (.notify c k) else none

/-- The notifications of an invocation, channels in order and kinds in order (R240, R242). -/
def notifyEvents (s : State) : List OutEvent :=
  if s.par.handlerSendsSignals then Chan.all.flatMap fun c => Kind.all.filterMap (notification s c) else []

/-- What h8 to h11 add to the state `t` that the per-edge update left: the count, the semaphores, the events, the
result (R237 to R241). `s` is the state the invocation started in. -/
def State.handledFrom (t s : State) : State :=
  { t with
    ch := quadOf fun c => { t.ch.get c with rsem := (t.ch.get c).rsem || semaphoreDue s c }
    irqcnt := t.irqcnt + 1
    evs := s.evs ++ semEvents s ++ notifyEvents s
    hport := .mine, hloc := .clear }

/-! ## Domains -/

/-- The domains of R15 and R44: mode in {0..7, 9, 10}, no immediate code persisted, every code valid. -/
def recOk (r : ChanRec) : Bool :=
  r.mode.toNat ≤ 10 && r.mode != 8 && r.ldc != 2 && r.clc != 2 && (r.stc == 0 || r.stc == 2) && r.cmpirq.toNat ≤ 5 &&
    r.rdmode.toNat ≤ 2

/-- The value a micro-step stores is in the domain of its field. -/
def Act.inDomain : Act → Bool
  | .setMode _ v => v.toNat ≤ 10 && v != 8
  | .setLdc _ v => v != 2
  | .setClc _ v => v != 2
  | .setStc _ v => v == 0 || v == 2
  | .setCmpirq _ v => v.toNat ≤ 5
  | .setRdmode _ v => v.toNat ≤ 2
  | .setPtofs v => 25 ≤ v.toNat
  | _ => true

/-- Every record is in its domain and the offset is at least 25 (R44), and the micro-steps still to come keep it so. -/
structure State.DomainInv (s : State) : Prop where
  records : ∀ c, recOk (s.ch.get c) = true
  offset : 25 ≤ s.ptofs.toNat
  command : ∀ m ∈ s.prog, m.act.inDomain = true
  handler : ∀ m ∈ s.hprog, m.act.inDomain = true

/-- The micro-steps that only the handler performs: h1 to h11 and those of the per-edge update that read the
handler's locals. -/
def Act.handlerOnly : Act → Bool
  | .hPend0 | .hPend1 | .hFold | .hOwn | .hEdge | .hCntLo | .hCntHi | .hDecide | .hCompute | .hCount | .hSem
  | .hNotify | .hEnd => true
  | _ => false

/-- The handler's position is a place in its own list h1 to h11, `inh` is set exactly while it has one (R34, R241), and
no command performs a micro-step of the handler (R243). -/
structure State.ContextInv (s : State) : Prop where
  place : s.hprog <:+ handlerSteps
  inside : s.inh = true ↔ s.hprog ≠ []
  separate : ∀ m ∈ s.prog, m.act.handlerOnly = false

/-! ## Mirrors -/

/-- The mirror invariants of one channel: "CNTCTL[c] = CCTL(c)", "INTCTL[c] = ICTL(c)", the comparators, and "ien = 0
implies pss = 0" (R26, R44). -/
structure State.ChanMirrored (s : State) (c : Chan) : Prop where
  cctl : (s.hw.get c).cntctl = cctlWord s.par.cctl (s.ch.get c)
  ictl : (s.hw.get c).intctl = ictlWord s.par.ictl (s.ch.get c)
  cmpA : compose (s.hw.get c).cmpaLo (s.hw.get c).cmpaHi = (s.ch.get c).cmpA
  cmpB : compose (s.hw.get c).cmpbLo (s.hw.get c).cmpbHi = (s.ch.get c).cmpB
  shadow : (s.ch.get c).ien = false → (s.ch.get c).pss = 0

/-- The invariants of R44 "while live and no command is between its micro-steps". -/
structure State.Mirrored (s : State) : Prop where
  chans : ∀ c, s.ChanMirrored c
  domains : ∀ c, recOk (s.ch.get c) = true
  outctl0 : s.outctl0 = s.octl0
  outctl1 : s.outctl1 = s.octl1
  outcfg : s.outcfg = s.ocfg
  selftest : s.selftest = s.stest
  offset : 25 ≤ s.ptofs.toNat

/-- An idle block: nothing in progress, no masked section open; if it is live, the invariants of R44 hold. -/
structure State.IdleInv (s : State) : Prop where
  wf : s.par.Wf
  noCommand : s.prog = []
  noHandler : s.hprog = []
  unmasked : s.imask = false
  outside : s.inh = false
  mirrored : s.live = true → s.Mirrored

/-! ## Runs -/

/-- `n` steps of the block, each answering a next state. -/
def runs : Nat → State → State → Prop
  | 0, s, t => s = t
  | n + 1, s, t => ∃ u, step s = .next u ∧ runs n u t

/-! ## Command words -/

/-- "CW base; add `ch << 6`" (R84). -/
def wordFor (base : BitVec 16) (c : Chan) : BitVec 16 := base ||| ((chanField c).zeroExtend 16 <<< 6)

/-- The 52 rows of the opcode table: mask and match of the command word (R84, spec/opcode_table.json). -/
def opcodeRows : List (BitVec 16 × BitVec 16) :=
  ([0x0100, 0x8100, 0x0200, 0x8200, 0x0300, 0x8300, 0x0400, 0x8400, 0x0500, 0x8500, 0x0600, 0x8600, 0x0700, 0x8700,
    0x0800, 0x8800, 0x0900, 0x8900, 0x0A00, 0x8A00, 0x0B00, 0x1000, 0x9000, 0x1100, 0x9100, 0x1200, 0x9200, 0x1300,
    0x9300, 0x1400, 0x9400, 0x1500, 0x9500, 0x4000, 0xC000, 0x4100, 0xC100].map fun w => (0xFF3F, w)) ++
  (([0x1800, 0x1900].map fun w => (0xFF07, w)) ++
  ([0x2000, 0xA000, 0x2100, 0xA100, 0x2200, 0xA200, 0x2300, 0xA300, 0x2400, 0xA400, 0xA500, 0x7E00, 0x7F00].map
    fun w => (0xFFFF, w)))

end Sys2Proof.Machine
end

