-- ==== Sys2Proof/Certificates/Slice0/Obligations.lean ====
section
/-!
DEFINITION. Sys2Proof/Certificates/Slice0/Obligations.lean: the statements about the block, for the provers. Each names
the rules of spec/ it formalises. `s.Ready` is a live block with nothing in progress and no environment event scheduled;
a state with any schedule is a state, so a statement about every state holds under every schedule.
-/

open Sys2Proof Sys2Proof.Machine

/-! ## Encoding and decoding -/

/-- The decoder reads back every command from its encoding, every field and operand at every value (R81, R84). Spec
decision D1 (log 15). -/
def Obligations.DecodeReadsBackEncoding : Prop :=
  ∀ i : Instr, decode (encode i).1 (encode i).2 = .ok i

/-- A word that decodes to a command is that command's encoding, with its DATA or, for a command that ignores DATA
(every DATA decodes to it), with 0 (R84, R90): no word has two meanings and no field is dropped. Spec decisions D1,
D35 (log 15). -/
def Obligations.DecodedWordIsEncoding : Prop :=
  ∀ (cw : BitVec 16) (data : Word) (i : Instr), decode cw data = .ok i →
    (encode i).1 = cw ∧
      ((encode i).2 = data ∨ ((encode i).2 = 0 ∧ ∀ other : Word, decode cw other = .ok i))

/-- The command words are exactly those a row of the opcode table matches: mask and match (R84, R86). Spec decisions
D1, D18 (log 15). -/
def Obligations.AcceptedWordsAreTheTable : Prop :=
  ∀ (cw : BitVec 16) (data : Word),
    (∃ i, decode cw data = .ok i) ↔ ∃ row ∈ opcodeRows, cw &&& row.1 = row.2

/-- The words of table 2.1 of the test vectors decode to the commands it names; 52 of the 256 values of CW[15:8] are
opcodes and 204 are not (R86). Spec decisions D1, D18 (log 15). -/
def Obligations.TableWordsDecode : Prop :=
  ((List.range 256).filter fun n => (opcodeRow n).isSome).length = 52 ∧
  ((List.range 256).filter fun n => (opcodeRow n).isNone).length = 204 ∧ opcodeRows.length = 52 ∧
  decode 0x0100 10 = .ok (.setMode .chA 10) ∧ decode 0x01C0 10 = .ok (.setMode .chD 10) ∧
  decode 0x8680 0 = .ok (.getCompa .chC) ∧ decode 0x1858 0x55 = .ok (.siginst .chB 3 0x55) ∧
  decode 0x19E0 0 = .ok (.sigrem .chD 4) ∧ decode 0xC040 0 = .ok (.read .chB) ∧
  decode 0xA500 0 = .ok .getIrqcnt ∧ decode 0x7F00 0 = .ok .exit ∧ decode 0x2100 1 = .ok (.setPten 1) ∧
  decode 0x0101 0 = .error .zeroField ∧ decode 0x0108 0 = .error .mustBeZero ∧
  decode 0x2040 0 = .error .mustBeZero ∧ decode 0x8B00 0 = .error .unknownOpcode

/-! ## The step and the checks -/

/-- In an idle block with a quiet environment, or one that gives HOST the turn, the step runs the decoded command,
with the rest of the queue left to issue. -/
def Obligations.StepRunsDecodedCommand : Prop :=
  ∀ (s : State) (q : Command) (rest : List Command) (i : Instr) (es : List Event),
    s.idle = true → s.inbox = q :: rest → decode q.cw q.data = .ok i →
    (s.script = [] → step s = exec i { s with inbox := rest }) ∧
    (s.script = .go :: es → step s = exec i { s with inbox := rest, script := es })

/-- Every word that is not a command is answered UnsupportedOperation, live or not, and nothing else changes (R86,
R205). Spec decision D18 (log 15). -/
def Obligations.UnknownWordIsUnsupported : Prop :=
  ∀ (s : State) (q : Command) (rest : List Command),
    s.idle = true → s.script = [] → s.inbox = q :: rest → (¬ ∃ row ∈ opcodeRows, q.cw &&& row.1 = row.2) →
    step s = .next ({ s with inbox := rest }.raise 5)

/-- An operand out of the range R221 gives it is answered InvalidParameter; so is FREQSTART of a channel that is not
in frequency mode. No side effect. Spec decision D18 (log 15). -/
def Obligations.OutOfRangeIsInvalidParameter : Prop :=
  (∀ (i : Instr) (s : State), s.Accepts → i.wellFormed = false → exec i s = .next (s.raise 1)) ∧
  (∀ (c : Chan) (s : State), s.Accepts → (s.ch.get c).mode ≠ 5 → exec (.freqstart c) s = .next (s.raise 1))

/-- A command that is not INIT while the block is not live, and INIT while it is, is refused (R92); so is any command
while another is in progress (R64). Spec decision D24 (log 15). -/
def Obligations.CommandsWithoutMeaningRefused : Prop :=
  (∀ (i : Instr) (s : State), s.prog ≠ [] → exec i s = .refused .overlap) ∧
  (∀ (i : Instr) (s : State), s.prog = [] → s.live = false → i ≠ .init → exec i s = .refused .notLive) ∧
  (∀ s : State, s.prog = [] → s.live = true → exec .init s = .refused .alreadyLive)

/-! ## Counter control -/

/-- SET.MODE (R101). -/
def Obligations.SetModeMeaning : Prop :=
  ∀ (c : Chan) (d : Word) (s : State),
    encode (.setMode c d) = (wordFor 0x0100 c, d) ∧
    (s.Accepts → ¬ (d.toNat ≤ 7 ∨ d.toNat = 9 ∨ d.toNat = 10) → exec (.setMode c d) s = .next (s.raise 1)) ∧
    (s.Accepts → d.toNat ≤ 7 ∨ d.toNat = 9 ∨ d.toNat = 10 →
      Performs (.setMode c d)
        [(Act.setMode c (d.truncate 4)).always, (Act.write (.cntctl c) (.cctl c)).always, (Act.ret .zero).always] s) ∧
    (s.Ready → recOk (s.ch.get c) = true → d.toNat ≤ 7 ∨ d.toNat = 9 ∨ d.toNat = 10 →
      exec (.setMode c d) s = .next ((s.setCctl c fun r => { r with mode := d.truncate 4 }).respond 0 0))

/-- SET.LOAD: the immediate code 2 transfers the preload to the counter once and persists nothing; any other is
persisted (R102, R105, R38). -/
def Obligations.SetLoadMeaning : Prop :=
  ∀ (c : Chan) (d : Word) (s : State),
    encode (.setLoad c d) = (wordFor 0x0200 c, d) ∧
    (s.Accepts → 3 < d.toNat → exec (.setLoad c d) s = .next (s.raise 1)) ∧
    (s.Accepts → d.toNat ≤ 3 → d ≠ 2 →
      Performs (.setLoad c d)
        [(Act.setLdc c (d.truncate 2)).always, (Act.write (.cntctl c) (.cctl c)).always, (Act.ret .zero).always] s) ∧
    (s.Accepts →
      Performs (.setLoad c 2)
        [(Act.write (.cntctl c) (.cctlForce c .load)).always, (Act.write (.cntctl c) (.cctl c)).always,
          (Act.ret .zero).always] s) ∧
    (s.Ready → recOk (s.ch.get c) = true → d.toNat ≤ 3 → d ≠ 2 →
      exec (.setLoad c d) s = .next ((s.setCctl c fun r => { r with ldc := d.truncate 2 }).respond 0 0)) ∧
    (s.Ready → recOk (s.ch.get c) = true →
      exec (.setLoad c 2) s =
        .next ((s.modHw c fun h =>
          { h with cntctl := cctlWord s.par.cctl (s.ch.get c), cnt := compose h.preLo h.preHi }).respond 0 0))

/-- SET.CLEAR: the immediate code 2 clears the counter once and persists nothing; any other is persisted (R103, R105,
R38). -/
def Obligations.SetClearMeaning : Prop :=
  ∀ (c : Chan) (d : Word) (s : State),
    encode (.setClear c d) = (wordFor 0x0300 c, d) ∧
    (s.Accepts → 3 < d.toNat → exec (.setClear c d) s = .next (s.raise 1)) ∧
    (s.Accepts → d.toNat ≤ 3 → d ≠ 2 →
      Performs (.setClear c d)
        [(Act.setClc c (d.truncate 2)).always, (Act.write (.cntctl c) (.cctl c)).always, (Act.ret .zero).always] s) ∧
    (s.Accepts →
      Performs (.setClear c 2)
        [(Act.write (.cntctl c) (.cctlForce c .clr)).always, (Act.write (.cntctl c) (.cctl c)).always,
          (Act.ret .zero).always] s) ∧
    (s.Ready → recOk (s.ch.get c) = true → d.toNat ≤ 3 → d ≠ 2 →
      exec (.setClear c d) s = .next ((s.setCctl c fun r => { r with clc := d.truncate 2 }).respond 0 0)) ∧
    (s.Ready → recOk (s.ch.get c) = true →
      exec (.setClear c 2) s =
        .next ((s.modHw c fun h => { h with cntctl := cctlWord s.par.cctl (s.ch.get c), cnt := 0 }).respond 0 0))

/-- SET.STORE: the immediate code is 1 and latches the counter once; 0 and 2 are persisted; 3 is out of range (R104,
R105, R18, R38). -/
def Obligations.SetStoreMeaning : Prop :=
  ∀ (c : Chan) (d : Word) (s : State),
    encode (.setStore c d) = (wordFor 0x0400 c, d) ∧
    (s.Accepts → 2 < d.toNat → exec (.setStore c d) s = .next (s.raise 1)) ∧
    (s.Accepts → d = 0 ∨ d = 2 →
      Performs (.setStore c d)
        [(Act.setStc c (d.truncate 2)).always, (Act.write (.cntctl c) (.cctl c)).always, (Act.ret .zero).always] s) ∧
    (s.Accepts →
      Performs (.setStore c 1)
        [(Act.write (.cntctl c) (.cctlForce c .sto)).always, (Act.write (.cntctl c) (.cctl c)).always,
          (Act.ret .zero).always] s) ∧
    (s.Ready → recOk (s.ch.get c) = true → d = 0 ∨ d = 2 →
      exec (.setStore c d) s = .next ((s.setCctl c fun r => { r with stc := d.truncate 2 }).respond 0 0)) ∧
    (s.Ready → recOk (s.ch.get c) = true →
      exec (.setStore c 1) s =
        .next ((s.modHw c fun h =>
          { h with cntctl := cctlWord s.par.cctl (s.ch.get c), lat := h.cnt }).respond 0 0))

/-- SET.TSTART (R106). -/
def Obligations.SetTstartMeaning : Prop :=
  ∀ (c : Chan) (d : Word) (s : State),
    encode (.setTstart c d) = (wordFor 0x0500 c, d) ∧
    (s.Accepts → 1 < d.toNat → exec (.setTstart c d) s = .next (s.raise 1)) ∧
    (s.Accepts → d.toNat ≤ 1 →
      Performs (.setTstart c d)
        [(Act.setTst c (d.truncate 1)).always, (Act.write (.cntctl c) (.cctl c)).always, (Act.ret .zero).always] s) ∧
    (s.Ready → recOk (s.ch.get c) = true → d.toNat ≤ 1 →
      exec (.setTstart c d) s = .next ((s.setCctl c fun r => { r with tst := d.truncate 1 }).respond 0 0))

/-- SET.COMPA and SET.COMPB: the record, then the low, then the high register (R107, R108). Spec decision D27 (log
15). -/
def Obligations.SetComparatorMeaning : Prop :=
  ∀ (c : Chan) (d : Word) (s : State),
    encode (.setCompa c d) = (wordFor 0x0600 c, d) ∧ encode (.setCompb c d) = (wordFor 0x0700 c, d) ∧
    (s.Accepts →
      Performs (.setCompa c d)
        [(Act.setCmpA c d).always, (Act.write (.cmpaLo c) (.const (lo16 d))).always,
          (Act.write (.cmpaHi c) (.const (hi16 d))).always, (Act.ret .zero).always] s ∧
      Performs (.setCompb c d)
        [(Act.setCmpB c d).always, (Act.write (.cmpbLo c) (.const (lo16 d))).always,
          (Act.write (.cmpbHi c) (.const (hi16 d))).always, (Act.ret .zero).always] s) ∧
    (s.Ready →
      exec (.setCompa c d) s =
        .next (((s.modRec c fun r => { r with cmpA := d }).modHw c fun h =>
          { h with cmpaLo := lo16 d, cmpaHi := hi16 d }).respond 0 0) ∧
      exec (.setCompb c d) s =
        .next (((s.modRec c fun r => { r with cmpB := d }).modHw c fun h =>
          { h with cmpbLo := lo16 d, cmpbHi := hi16 d }).respond 0 0))

/-- FREQSTART: in mode 5 the gate opens and no field of the record changes; in any other mode InvalidParameter (R109,
R59). Spec decision D34 (log 15). -/
def Obligations.FreqstartMeaning : Prop :=
  ∀ (c : Chan) (s : State),
    encode (.freqstart c) = (wordFor 0x0B00 c, 0) ∧
    (s.Accepts → (s.ch.get c).mode ≠ 5 → exec (.freqstart c) s = .next (s.raise 1)) ∧
    (s.Accepts → (s.ch.get c).mode = 5 →
      Performs (.freqstart c) [(Act.write (.cntctl c) (.cctlTb c)).always, (Act.ret .zero).always] s) ∧
    (s.Ready → recOk (s.ch.get c) = true → (s.ch.get c).mode = 5 →
      exec (.freqstart c) s =
        .next ((s.modHw c fun h =>
          { h with cntctl := cctlWord s.par.cctl (s.ch.get c), tb := true }).respond 0 0))

/-- WRITE: the preload pair, low then high; with `wrmode = 1` the force-load follows (R110). -/
def Obligations.WriteMeaning : Prop :=
  ∀ (c : Chan) (d : Word) (s : State),
    encode (.write c d) = (wordFor 0x4000 c, d) ∧
    (s.Accepts →
      Performs (.write c d)
        [(Act.write (.preLo c) (.const (lo16 d))).always, (Act.write (.preHi c) (.const (hi16 d))).always,
          (Act.write (.cntctl c) (.cctlForce c .load)).under (.forceLoad c),
          (Act.write (.cntctl c) (.cctl c)).under (.forceLoad c), (Act.ret .zero).always] s) ∧
    (s.Ready → (s.ch.get c).wrmode = 0 →
      exec (.write c d) s = .next ((s.modHw c fun h => { h with preLo := lo16 d, preHi := hi16 d }).respond 0 0)) ∧
    (s.Ready → recOk (s.ch.get c) = true → (s.ch.get c).wrmode = 1 →
      exec (.write c d) s =
        .next ((s.modHw c fun h =>
          { h with preLo := lo16 d, preHi := hi16 d, cntctl := cctlWord s.par.cctl (s.ch.get c), cnt := d }).respond
            0 0))

/-- READ in the modes read-latched and force-latch-before-read (R111): the latched count, in the second mode after one
forced store. Spec decisions D21, D22 (log 15). -/
def Obligations.ReadReturnsLatchedCount : Prop :=
  ∀ (c : Chan) (s : State),
    encode (.read c) = (wordFor 0xC000 c, 0) ∧
    (s.Accepts →
      Performs (.read c)
        [(Act.readMode c).always, (Act.await c).under (.readMode 1),
          (Act.write (.cntctl c) (.cctlForce c .sto)).under (.readMode 2),
          (Act.write (.cntctl c) (.cctl c)).under (.readMode 2),
          Act.maskOpen.always, (Act.readLo c).always, (Act.readHi c).always, Act.maskClose.always,
          (Act.ret .count).always] s) ∧
    (s.Ready → (s.ch.get c).rdmode = 0 → exec (.read c) s = .next (s.respond 0 (s.hw.get c).lat)) ∧
    (s.Ready → recOk (s.ch.get c) = true → (s.ch.get c).rdmode = 2 →
      exec (.read c) s =
        .next ((s.modHw c fun h =>
          { h with cntctl := cctlWord s.par.cctl (s.ch.get c), lat := h.cnt }).respond 0 (s.hw.get c).cnt))

/-- READ in the mode wait-for-ready-interrupt (R111, R224): it consumes an available semaphore; else with `rdtout = 0`
it answers Timeout at once; else it waits, and the timer or the semaphore ends the wait. That it waits while the
schedule is used up, where R111 would also let it time out, is the model's choice (log 9). Spec decision D22 (log 15).
-/
def Obligations.WaitingReadMeaning : Prop :=
  ∀ (c : Chan) (s : State), s.Ready → (s.ch.get c).rdmode = 1 →
    ((s.ch.get c).rsem = true →
      exec (.read c) s = .next ((s.modRec c fun r => { r with rsem := false }).respond 0 (s.hw.get c).lat)) ∧
    ((s.ch.get c).rsem = false → (s.ch.get c).rdtout = 0 → exec (.read c) s = .next (s.raise 4)) ∧
    ((s.ch.get c).rsem = false → (s.ch.get c).rdtout ≠ 0 →
      ∃ t : State, exec (.read c) s = .next t ∧ t.ch = s.ch ∧ t.hw = s.hw ∧ t.prog ≠ [] ∧
        step t = .next t ∧
        step { t with script := [.timeout] } = .next (s.raise 4) ∧
        step (t.modRec c fun r => { r with rsem := true }) = .next (s.respond 0 (s.hw.get c).lat))

/-- SET.READMODE, SET.READTOUT and SET.WRITEMODE store one field and touch no register (R112, R113, R114). Spec
decision D22 (log 15). -/
def Obligations.PolicySettersMeaning : Prop :=
  ∀ (c : Chan) (d : Word) (s : State),
    encode (.setReadmode c d) = (wordFor 0x0800 c, d) ∧ encode (.setReadtout c d) = (wordFor 0x0900 c, d) ∧
    encode (.setWritemode c d) = (wordFor 0x0A00 c, d) ∧
    (s.Accepts → 2 < d.toNat → exec (.setReadmode c d) s = .next (s.raise 1)) ∧
    (s.Accepts → 1 < d.toNat → exec (.setWritemode c d) s = .next (s.raise 1)) ∧
    (s.Accepts → d.toNat ≤ 2 →
      Performs (.setReadmode c d) [(Act.setRdmode c (d.truncate 2)).always, (Act.ret .zero).always] s) ∧
    (s.Accepts → Performs (.setReadtout c d) [(Act.setRdtout c d).always, (Act.ret .zero).always] s) ∧
    (s.Accepts → d.toNat ≤ 1 →
      Performs (.setWritemode c d) [(Act.setWrmode c (d.truncate 1)).always, (Act.ret .zero).always] s) ∧
    (s.Ready → d.toNat ≤ 2 →
      exec (.setReadmode c d) s = .next ((s.modRec c fun r => { r with rdmode := d.truncate 2 }).respond 0 0)) ∧
    (s.Ready → exec (.setReadtout c d) s = .next ((s.modRec c fun r => { r with rdtout := d }).respond 0 0)) ∧
    (s.Ready → d.toNat ≤ 1 →
      exec (.setWritemode c d) s = .next ((s.modRec c fun r => { r with wrmode := d.truncate 1 }).respond 0 0))

/-- A value written with WRITE, loaded and stored by force, and read back is the value written, whatever the CORE does
in between to a channel that is halted with its conditions disabled (R110, R102, R104, R111, R40; test vector S7).
Spec decision D12 (log 15). -/
def Obligations.WriteLoadStoreReadRoundTrip : Prop :=
  ∀ (c : Chan) (v : Word) (s : State) (es₁ es₂ es₃ : List CoreEvent),
    s.Ready → recOk (s.ch.get c) = true → (s.ch.get c).mode = 0 → (s.ch.get c).ldc = 0 → (s.ch.get c).clc = 0 →
    (s.ch.get c).stc = 0 → (s.ch.get c).rdmode = 0 →
    ∃ t₁ t₂ t₃ t₄ : State,
      exec (.write c v) s = .next t₁ ∧ exec (.setLoad c 2) (coreEvents es₁ t₁) = .next t₂ ∧
      exec (.setStore c 1) (coreEvents es₂ t₂) = .next t₃ ∧ exec (.read c) (coreEvents es₃ t₃) = .next t₄ ∧
      t₄.status = 0 ∧ t₄.rdata = v ∧ t₄.ch = s.ch

/-! ## Interrupt control -/

/-- SET.IRQEN: enabling sets `ien`; disabling clears `ien` and `pss` in one masked section; both rewrite INTCTL (R130,
R140). Spec decision D21 (log 15). -/
def Obligations.SetIrqenMeaning : Prop :=
  ∀ (c : Chan) (d : Word) (s : State),
    encode (.setIrqen c d) = (wordFor 0x1000 c, d) ∧
    (s.Accepts → 1 < d.toNat → exec (.setIrqen c d) s = .next (s.raise 1)) ∧
    (s.Accepts →
      Performs (.setIrqen c 0)
        [Act.maskOpen.always, (Act.ienOff c).always, (Act.pssZero c).always,
          (Act.write (.intctl c) (.ictl c)).always, Act.maskClose.always, (Act.ret .zero).always] s ∧
      Performs (.setIrqen c 1)
        [(Act.ienOn c).always, (Act.write (.intctl c) (.ictl c)).always, (Act.ret .zero).always] s) ∧
    (s.Ready →
      exec (.setIrqen c 0) s = .next ((s.setIctl c fun r => { r with ien := false, pss := 0 }).respond 0 0) ∧
      exec (.setIrqen c 1) s = .next ((s.setIctl c fun r => { r with ien := true }).respond 0 0))

/-- SET.COMPIRQ and SET.CBIRQ (R131, R132). -/
def Obligations.SetConditionIrqMeaning : Prop :=
  ∀ (c : Chan) (d : Word) (s : State),
    encode (.setCompirq c d) = (wordFor 0x1100 c, d) ∧ encode (.setCbirq c d) = (wordFor 0x1200 c, d) ∧
    (s.Accepts → 5 < d.toNat → exec (.setCompirq c d) s = .next (s.raise 1)) ∧
    (s.Accepts → 3 < d.toNat → exec (.setCbirq c d) s = .next (s.raise 1)) ∧
    (s.Accepts → d.toNat ≤ 5 →
      Performs (.setCompirq c d)
        [(Act.setCmpirq c (d.truncate 3)).always, (Act.write (.intctl c) (.ictl c)).always, (Act.ret .zero).always] s) ∧
    (s.Accepts → d.toNat ≤ 3 →
      Performs (.setCbirq c d)
        [(Act.setCbirq c (d.truncate 2)).always, (Act.write (.intctl c) (.ictl c)).always, (Act.ret .zero).always] s) ∧
    (s.Ready → d.toNat ≤ 5 →
      exec (.setCompirq c d) s = .next ((s.setIctl c fun r => { r with cmpirq := d.truncate 3 }).respond 0 0)) ∧
    (s.Ready → d.toNat ≤ 3 →
      exec (.setCbirq c d) s = .next ((s.setIctl c fun r => { r with cbirq := d.truncate 2 }).respond 0 0))

/-- SET.LBIRQ and SET.XIRQ (R133, R134). -/
def Obligations.SetSourceIrqMeaning : Prop :=
  ∀ (c : Chan) (d : Word) (s : State),
    encode (.setLbirq c d) = (wordFor 0x1300 c, d) ∧ encode (.setXirq c d) = (wordFor 0x1400 c, d) ∧
    (s.Accepts → 1 < d.toNat →
      exec (.setLbirq c d) s = .next (s.raise 1) ∧ exec (.setXirq c d) s = .next (s.raise 1)) ∧
    (s.Accepts → d.toNat ≤ 1 →
      Performs (.setLbirq c d)
        [(Act.setLben c (d == 1)).always, (Act.write (.intctl c) (.ictl c)).always, (Act.ret .zero).always] s ∧
      Performs (.setXirq c d)
        [(Act.setXen c (d == 1)).always, (Act.write (.intctl c) (.ictl c)).always, (Act.ret .zero).always] s) ∧
    (s.Ready → d.toNat ≤ 1 →
      exec (.setLbirq c d) s = .next ((s.setIctl c fun r => { r with lben := d == 1 }).respond 0 0) ∧
      exec (.setXirq c d) s = .next ((s.setIctl c fun r => { r with xen := d == 1 }).respond 0 0))

/-- GET.IRQSTAT: the shadow of an enabled channel, the live flags of a disabled one, whatever the reserved bits read
as; nothing is cleared (R135, R56). A poll is one more read of a pending-flag register (log 7). Spec decisions D10,
D21, D28 (log 15). -/
def Obligations.GetIrqstatMeaning : Prop :=
  ∀ (c : Chan) (s : State),
    encode (.getIrqstat c) = (wordFor 0x9500 c, 0) ∧
    (s.Accepts →
      Performs (.getIrqstat c)
        [Act.maskOpen.always, (Act.statQuery c).always, Act.maskClose.always, (Act.ret .status).always] s) ∧
    (s.Ready → (s.ch.get c).ien = true →
      exec (.getIrqstat c) s = .next (s.respond 0 ((s.ch.get c).pss.zeroExtend 32))) ∧
    (s.Ready → (s.ch.get c).ien = false →
      exec (.getIrqstat c) s =
        .next ({ s with draws := s.draws + 1 }.respond 0 ((s.hw.get c).pend.zeroExtend 32)))

/-- CLR.IRQSTAT: the masked bits of the shadow of an enabled channel, or of the live flags of a disabled one, are
cleared; no other channel is affected (R136, R60). Spec decisions D10, D21, D28 (log 15). -/
def Obligations.ClrIrqstatMeaning : Prop :=
  ∀ (c : Chan) (d : Word) (s : State),
    encode (.clrIrqstat c d) = (wordFor 0x1500 c, d) ∧
    (s.Accepts → 0x1F < d.toNat → exec (.clrIrqstat c d) s = .next (s.raise 1)) ∧
    (s.Accepts → d.toNat ≤ 0x1F →
      Performs (.clrIrqstat c d)
        [Act.maskOpen.always, (Act.statClear c (d.truncate 5)).always, Act.maskClose.always,
          (Act.ret .zero).always] s) ∧
    (s.Ready → d.toNat ≤ 0x1F → (s.ch.get c).ien = true →
      exec (.clrIrqstat c d) s =
        .next ((s.modRec c fun r => { r with pss := r.pss &&& ~~~(d.truncate 5) }).respond 0 0)) ∧
    (s.Ready → d.toNat ≤ 0x1F → (s.ch.get c).ien = false →
      exec (.clrIrqstat c d) s =
        .next ((s.modHw c fun h => { h with pend := h.pend &&& ~~~(d.truncate 5) }).respond 0 0))

/-- SIGINST and SIGREM (R137, R138): a KIND above 4 is InvalidParameter on any slot; else an occupied slot refuses a
second token (6), an empty one a removal (7), and otherwise the slot holds the token, or nothing. Spec decisions D31,
D36 (log 15). -/
def Obligations.SlotCommandsMeaning : Prop :=
  ∀ (c : Chan) (kind : BitVec 3) (d : Word) (s : State),
    encode (.siginst c kind d) = (wordFor 0x1800 c ||| (kind.zeroExtend 16 <<< 3), d) ∧
    encode (.sigrem c kind) = (wordFor 0x1900 c ||| (kind.zeroExtend 16 <<< 3), 0) ∧
    (s.Accepts → 4 < kind.toNat →
      exec (.siginst c kind d) s = .next (s.raise 1) ∧ exec (.sigrem c kind) s = .next (s.raise 1)) ∧
    (∀ k : Kind, k.index = kind.toNat →
      (s.Accepts → (s.ch.get c).sig.get k ≠ none → exec (.siginst c kind d) s = .next (s.raise 6)) ∧
      (s.Accepts → (s.ch.get c).sig.get k = none → exec (.sigrem c kind) s = .next (s.raise 7)) ∧
      (s.Accepts → (s.ch.get c).sig.get k = none →
        Performs (.siginst c kind d) [(Act.setSig c k (some d)).always, (Act.ret .zero).always] s) ∧
      (s.Accepts → (s.ch.get c).sig.get k ≠ none →
        Performs (.sigrem c kind) [(Act.setSig c k none).always, (Act.ret .zero).always] s) ∧
      (s.Ready → (s.ch.get c).sig.get k = none →
        exec (.siginst c kind d) s =
          .next ((s.modRec c fun r => { r with sig := r.sig.set k (some d) }).respond 0 0)) ∧
      (s.Ready → (s.ch.get c).sig.get k ≠ none →
        exec (.sigrem c kind) s = .next ((s.modRec c fun r => { r with sig := r.sig.set k none }).respond 0 0)))

/-! ## Pretrigger -/

/-- SET.PTOFS clamps to 25 and never rejects (R161). Spec decision D19 (log 15). -/
def Obligations.SetPtofsClamps : Prop :=
  ∀ (d : Word) (s : State),
    encode (.setPtofs d) = (0x2000, d) ∧
    (s.Ready → d.toNat < 25 → exec (.setPtofs d) s = .next ({ s with ptofs := 25 }.respond 0 0)) ∧
    (s.Ready → 25 ≤ d.toNat → exec (.setPtofs d) s = .next ({ s with ptofs := d }.respond 0 0))

/-- SET.PTEN without a false to true transition stores the request and changes no register: the disable takes no
immediate hardware action (R162, R172). Spec decisions D16, D33 (log 15). -/
def Obligations.SetPtenWithoutTransition : Prop :=
  ∀ (d : Word) (s : State),
    encode (.setPten d) = (0x2100, d) ∧
    (s.Accepts → 1 < d.toNat → exec (.setPten d) s = .next (s.raise 1)) ∧
    (s.Ready → exec (.setPten 0) s = .next ({ s with pten := false }.respond 0 0)) ∧
    (s.Ready → s.pten = true → exec (.setPten 1) s = .next (s.respond 0 0))

/-- SET.PTEN 1 from `pten = 0` runs the arm sequence: its micro-steps in their order, and the state they leave when
they run undisturbed (R162 to R167). Spec decisions D16, D17, D21 (log 15). -/
def Obligations.SetPtenArms : Prop :=
  ∀ s : State,
    (s.Ready → s.pten = false → exec (.setPten 1) s = .next (s.armed.respond 0 0)) ∧
    (s.Accepts →
      Performs (.setPten 1)
        ((Act.setPten true).always :: ([
          Act.write (.preLo .chA) (.const 0), .write (.preHi .chA) (.const 0), .setCmpA .chA 0xFFFFFFFF,
          .write (.cmpaLo .chA) (.const 0xFFFF), .write (.cmpaHi .chA) (.const 0xFFFF), .orOcfg,
          .write .outcfg .ocfg, .armRef, .write (.cntctl .chA) (.cctl .chA),
          .setCmpA .chB 0, .write (.cmpaLo .chB) (.const 0), .write (.cmpaHi .chB) (.const 0), .maskOpen,
          .armMask .chB, .write (.intctl .chB) (.ictl .chB), .maskClose, .armSlave .chB,
          .write (.cntctl .chB) (.cctl .chB),
          .setCmpA .chC 0, .write (.cmpaLo .chC) (.const 0), .write (.cmpaHi .chC) (.const 0), .maskOpen,
          .armMask .chC, .write (.intctl .chC) (.ictl .chC), .maskClose, .armSlave .chC,
          .write (.cntctl .chC) (.cctl .chC),
          .armOctl0, .write .outctl0 .octl0, .armOctl1, .write .outctl1 .octl1, .setPtarmed true,
          .ienOn .chA, .write (.intctl .chA) (.ictl .chA), .setXen .chA true,
          .write (.intctl .chA) (.ictl .chA)].map fun a => a.under .arm) ++ [(Act.ret .zero).always]) s)

/-! ## Global commands -/

/-- SET.OUTMODE and SET.OUTSET (R180, R181). Spec decision D17 (log 15). -/
def Obligations.OutputSettersMeaning : Prop :=
  ∀ (d : Word) (s : State),
    encode (.setOutmode d) = (0x2200, d) ∧ encode (.setOutset d) = (0x2300, d) ∧
    (s.Accepts → 15 < d.toNat → exec (.setOutset d) s = .next (s.raise 1)) ∧
    (s.Accepts →
      Performs (.setOutmode d)
        [(Act.setOctl0 (lo16 d)).always, (Act.write .outctl0 .octl0).always, (Act.setOctl1 (hi16 d)).always,
          (Act.write .outctl1 .octl1).always, (Act.ret .zero).always] s) ∧
    (s.Accepts → d.toNat ≤ 15 →
      Performs (.setOutset d)
        [(Act.setOcfg (d.truncate 16)).always, (Act.write .outcfg .ocfg).always, (Act.ret .zero).always] s) ∧
    (s.Ready →
      exec (.setOutmode d) s =
        .next ({ s with octl0 := lo16 d, outctl0 := lo16 d, octl1 := hi16 d, outctl1 := hi16 d }.respond 0 0)) ∧
    (s.Ready → d.toNat ≤ 15 →
      exec (.setOutset d) s = .next ({ s with ocfg := d.truncate 16, outcfg := d.truncate 16 }.respond 0 0))

/-- SET.SELFTEST: out of range InvalidParameter, zero written, any other word refused (R182). Spec decision D29 (log
15). -/
def Obligations.SetSelftestMeaning : Prop :=
  ∀ (d : Word) (s : State),
    encode (.setSelftest d) = (0x2400, d) ∧
    (s.Accepts → 0xFFFF < d.toNat → exec (.setSelftest d) s = .next (s.raise 1)) ∧
    (s.Accepts → d.toNat ≤ 0xFFFF → d ≠ 0 → exec (.setSelftest d) s = .refused .selftestNonzero) ∧
    (s.Accepts →
      Performs (.setSelftest 0)
        [(Act.setStest 0).always, (Act.write .selftest .stest).always, (Act.ret .zero).always] s) ∧
    (s.Ready → exec (.setSelftest 0) s = .next ({ s with stest := 0, selftest := 0 }.respond 0 0))

/-- The getters of the counter configuration return the persisted field and change nothing (R183 to R193). Spec
decisions D1, D27 (log 15). -/
def Obligations.CounterGettersMeaning : Prop :=
  ∀ (c : Chan) (s : State),
    encode (.getMode c) = (wordFor 0x8100 c, 0) ∧ encode (.getLoad c) = (wordFor 0x8200 c, 0) ∧
    encode (.getClear c) = (wordFor 0x8300 c, 0) ∧ encode (.getStore c) = (wordFor 0x8400 c, 0) ∧
    encode (.getTstart c) = (wordFor 0x8500 c, 0) ∧ encode (.getCompa c) = (wordFor 0x8600 c, 0) ∧
    encode (.getCompb c) = (wordFor 0x8700 c, 0) ∧ encode (.getReadmode c) = (wordFor 0x8800 c, 0) ∧
    encode (.getReadtout c) = (wordFor 0x8900 c, 0) ∧ encode (.getWritemode c) = (wordFor 0x8A00 c, 0) ∧
    (s.Ready →
      exec (.getMode c) s = .next (s.respond 0 ((s.ch.get c).mode.zeroExtend 32)) ∧
      exec (.getLoad c) s = .next (s.respond 0 ((s.ch.get c).ldc.zeroExtend 32)) ∧
      exec (.getClear c) s = .next (s.respond 0 ((s.ch.get c).clc.zeroExtend 32)) ∧
      exec (.getStore c) s = .next (s.respond 0 ((s.ch.get c).stc.zeroExtend 32)) ∧
      exec (.getTstart c) s = .next (s.respond 0 ((s.ch.get c).tst.zeroExtend 32)) ∧
      exec (.getCompa c) s = .next (s.respond 0 (s.ch.get c).cmpA) ∧
      exec (.getCompb c) s = .next (s.respond 0 (s.ch.get c).cmpB) ∧
      exec (.getReadmode c) s = .next (s.respond 0 ((s.ch.get c).rdmode.zeroExtend 32)) ∧
      exec (.getReadtout c) s = .next (s.respond 0 (s.ch.get c).rdtout) ∧
      exec (.getWritemode c) s = .next (s.respond 0 ((s.ch.get c).wrmode.zeroExtend 32)))

/-- The getters of the interrupt configuration (R194 to R198) and of the device record (R199 to R202, R208, R139)
return the field, booleans as 0 or 1, and change nothing (R88, R183). Spec decisions D1, D17, D19, D26, D29 (log 15).
-/
def Obligations.InterruptAndDeviceGettersMeaning : Prop :=
  ∀ (c : Chan) (s : State),
    encode (.getIrqen c) = (wordFor 0x9000 c, 0) ∧ encode (.getCompirq c) = (wordFor 0x9100 c, 0) ∧
    encode (.getCbirq c) = (wordFor 0x9200 c, 0) ∧ encode (.getLbirq c) = (wordFor 0x9300 c, 0) ∧
    encode (.getXirq c) = (wordFor 0x9400 c, 0) ∧ encode .getPtofs = (0xA000, 0) ∧ encode .getPten = (0xA100, 0) ∧
    encode .getOutmode = (0xA200, 0) ∧ encode .getOutset = (0xA300, 0) ∧ encode .getSelftest = (0xA400, 0) ∧
    encode .getIrqcnt = (0xA500, 0) ∧
    (s.Ready →
      exec (.getIrqen c) s = .next (s.respond 0 (if (s.ch.get c).ien then 1 else 0)) ∧
      exec (.getCompirq c) s = .next (s.respond 0 ((s.ch.get c).cmpirq.zeroExtend 32)) ∧
      exec (.getCbirq c) s = .next (s.respond 0 ((s.ch.get c).cbirq.zeroExtend 32)) ∧
      exec (.getLbirq c) s = .next (s.respond 0 (if (s.ch.get c).lben then 1 else 0)) ∧
      exec (.getXirq c) s = .next (s.respond 0 (if (s.ch.get c).xen then 1 else 0)) ∧
      exec .getPtofs s = .next (s.respond 0 s.ptofs) ∧
      exec .getPten s = .next (s.respond 0 (if s.pten then 1 else 0)) ∧
      exec .getOutmode s = .next (s.respond 0 (compose s.octl0 s.octl1)) ∧
      exec .getOutset s = .next (s.respond 0 (s.ocfg.zeroExtend 32)) ∧
      exec .getSelftest s = .next (s.respond 0 (s.stest.zeroExtend 32)) ∧
      exec .getIrqcnt s = .next (s.respond 0 s.irqcnt))

/-- BLKREAD and BLKWRITE always answer UnsupportedOperation, with no micro-step and no side effect (R203, R204). -/
def Obligations.BlockCallsUnsupported : Prop :=
  ∀ (c : Chan) (s : State),
    encode (.blkread c) = (wordFor 0xC100 c, 0) ∧ encode (.blkwrite c) = (wordFor 0x4100 c, 0) ∧
    (s.Accepts → exec (.blkread c) s = .next (s.raise 5) ∧ exec (.blkwrite c) s = .next (s.raise 5))

/-- INIT with a configuration in range and every collaborator result good performs i1 to i6, the interrupt enables
after every other register and `live` last, under any schedule; in a quiet environment it leaves the state of R46
(R206). It takes the CFG record when it is accepted (log 16). Spec decision D23 (log 15). -/
def Obligations.InitLeavesConfiguredState : Prop :=
  ∀ s : State, s.live = false → s.prog = [] → s.cfg.allocOk = true → cfgOk s.cfg = true → s.cfg.idOk = true →
    (s.cfg.logicOk || s.cfg.logicBypass) = true →
    encode .init = (0x7E00, 0) ∧
    Performs .init
      (([Act.zeroCtl, .write .selftest (.const 0)] ++
        (Chan.all.flatMap fun c =>
          let g := s.cfg.chans.get c
          [Act.setMode c (g.mode.truncate 4), .write (.cntctl c) (.cctl c),
            if g.ldc = 2 then .write (.cntctl c) (.cctlForce c .load) else .setLdc c (g.ldc.truncate 2),
            .write (.cntctl c) (.cctl c),
            if g.clc = 2 then .write (.cntctl c) (.cctlForce c .clr) else .setClc c (g.clc.truncate 2),
            .write (.cntctl c) (.cctl c),
            if g.stc = 1 then .write (.cntctl c) (.cctlForce c .sto) else .setStc c (g.stc.truncate 2),
            .write (.cntctl c) (.cctl c),
            .setTst c (g.tst.truncate 1), .write (.cntctl c) (.cctl c),
            .setCmpA c g.cmpA, .write (.cmpaLo c) (.const (lo16 g.cmpA)), .write (.cmpaHi c) (.const (hi16 g.cmpA)),
            .setCmpB c g.cmpB, .write (.cmpbLo c) (.const (lo16 g.cmpB)), .write (.cmpbHi c) (.const (hi16 g.cmpB)),
            .setCmpirq c (g.cmpirq.truncate 3), .write (.intctl c) (.ictl c),
            .setCbirq c (g.cbirq.truncate 2), .write (.intctl c) (.ictl c),
            .setLben c (g.lben == 1), .write (.intctl c) (.ictl c),
            .setXen c (g.xen == 1), .write (.intctl c) (.ictl c),
            .setRdmode c (g.rdmode.truncate 2), .setRdtout c g.rdtout, .setWrmode c (g.wrmode.truncate 1)]) ++
        [Act.setOctl0 (lo16 s.cfg.outMode), .write .outctl0 .octl0, .setOctl1 (hi16 s.cfg.outMode),
          .write .outctl1 .octl1, .setOcfg (s.cfg.outSet.truncate 16), .write .outcfg .ocfg] ++
        (Chan.all.flatMap fun c =>
          if (s.cfg.chans.get c).ien = 1 then [Act.ienOn c, .write (.intctl c) (.ictl c)]
          else [Act.maskOpen, .ienOff c, .pssZero c, .write (.intctl c) (.ictl c), .maskClose]) ++
        [Act.goLive, .ret .zero]).map Act.always) s ∧
    (s.par.Wf → s.hprog = [] → s.script = [] → s.imask = false →
      exec .init s = .next (s.initialised.respond 0 0))

/-- INIT's four checks in their order, the configuration check being every range of every setter; a failing one is the
response, nothing is written and the block stays not live (R206, R222, R223). Spec decision D23 (log 15). -/
def Obligations.InitFailureWritesNothing : Prop :=
  (∀ p : CfgPort, cfgOk p = true ↔ p.outSet.toNat ≤ 15 ∧ ∀ c,
    let g := p.chans.get c
    (g.mode.toNat ≤ 7 ∨ g.mode.toNat = 9 ∨ g.mode.toNat = 10) ∧ g.ldc.toNat ≤ 3 ∧ g.clc.toNat ≤ 3 ∧
      g.stc.toNat ≤ 2 ∧ g.tst.toNat ≤ 1 ∧ g.ien.toNat ≤ 1 ∧ g.cmpirq.toNat ≤ 5 ∧ g.cbirq.toNat ≤ 3 ∧
      g.lben.toNat ≤ 1 ∧ g.xen.toNat ≤ 1 ∧ g.rdmode.toNat ≤ 2 ∧ g.wrmode.toNat ≤ 1) ∧
  ∀ s : State, s.live = false → s.prog = [] →
    (s.cfg.allocOk = false → exec .init s = .next (s.raise 3)) ∧
    (s.cfg.allocOk = true → cfgOk s.cfg = false → exec .init s = .next (s.raise 1)) ∧
    (s.cfg.allocOk = true → cfgOk s.cfg = true → s.cfg.idOk = false → exec .init s = .next (s.raise 2)) ∧
    (s.cfg.allocOk = true → cfgOk s.cfg = true → s.cfg.idOk = true → s.cfg.logicOk = false →
      s.cfg.logicBypass = false → exec .init s = .next (s.raise 2))

/-- EXIT: not live; every CNTCTL and INTCTL zero; every pending flag cleared; every other register kept; the
pretrigger Disabled; the rest of CTL free here, and whatever it was before has no effect: nothing of it survives
(R207, R47, R160, R263). The model's own choice for that rest is log 22. Spec decisions D15, D24 (log 15). -/
def Obligations.ExitQuiesces : Prop :=
  ∀ s : State,
    encode .exit = (0x7F00, 0) ∧
    (s.Accepts →
      Performs .exit
        (Act.goDown.always ::
          ([Act.write (.cntctl .chA) (.const 0), .write (.intctl .chA) (.const 0), .write (.cntctl .chB) (.const 0),
            .write (.intctl .chB) (.const 0), .write (.cntctl .chC) (.const 0), .write (.intctl .chC) (.const 0),
            .write (.cntctl .chD) (.const 0), .write (.intctl .chD) (.const 0), .write .pend0 .pendMask0,
            .write .pend1 .pendMask1, .ret .zero].map Act.always)) s) ∧
    (s.Ready → ∃ ctl : State,
      exec .exit s =
        .next ({ s.withCtl ctl with
          live := false
          ptarmed := false
          hw := quadOf fun c => { s.hw.get c with cntctl := 0, intctl := 0, pend := 0 } }.respond 0 0)) ∧
    (s.Ready → ∀ ctl : State, exec .exit (s.withCtl ctl) = exec .exit s)

/-! ## Register file -/

/-- A write to a storage register replaces its contents and does nothing else (R57). -/
def Obligations.StorageRegisterWrites : Prop :=
  ∀ (s : State) (v : Reg16) (c : Chan), s.par.Wf →
    memWrite (s.par.regmap.offset (.cmpaLo c)) 2 v s = .ok (s.modHw c fun h => { h with cmpaLo := v }) ∧
    memWrite (s.par.regmap.offset (.cmpaHi c)) 2 v s = .ok (s.modHw c fun h => { h with cmpaHi := v }) ∧
    memWrite (s.par.regmap.offset (.cmpbLo c)) 2 v s = .ok (s.modHw c fun h => { h with cmpbLo := v }) ∧
    memWrite (s.par.regmap.offset (.cmpbHi c)) 2 v s = .ok (s.modHw c fun h => { h with cmpbHi := v }) ∧
    memWrite (s.par.regmap.offset (.preLo c)) 2 v s = .ok (s.modHw c fun h => { h with preLo := v }) ∧
    memWrite (s.par.regmap.offset (.preHi c)) 2 v s = .ok (s.modHw c fun h => { h with preHi := v }) ∧
    memWrite (s.par.regmap.offset (.intctl c)) 2 v s = .ok (s.modHw c fun h => { h with intctl := v }) ∧
    memWrite (s.par.regmap.offset .outctl0) 2 v s = .ok { s with outctl0 := v } ∧
    memWrite (s.par.regmap.offset .outctl1) 2 v s = .ok { s with outctl1 := v } ∧
    memWrite (s.par.regmap.offset .outcfg) 2 v s = .ok { s with outcfg := v } ∧
    memWrite (s.par.regmap.offset .selftest) 2 v s = .ok { s with selftest := v }

/-- A write to CNTCTL: the contents with the TB bit forced to 0, then the one force action its fields select, the gate
opened if TB = 1; two immediate codes are refused (R58, R59, R38). Spec decisions D4, D11, D34 (log 15). -/
def Obligations.CntctlWriteMeaning : Prop :=
  ∀ (s : State) (v : Reg16) (c : Chan), s.par.Wf →
    let load := fieldGet s.par.cctl.fLoad v = 2
    let clear := fieldGet s.par.cctl.fClr v = 2
    let store := fieldGet s.par.cctl.fSto v = 1
    let stored := v &&& ~~~(fieldMask s.par.cctl.fTb)
    let gate := (s.hw.get c).tb || decide (fieldGet s.par.cctl.fTb v = 1)
    ((load ∧ clear) ∨ (load ∧ store) ∨ (clear ∧ store) →
      memWrite (s.par.regmap.offset (.cntctl c)) 2 v s = .error .doubleForce) ∧
    (load → ¬ clear → ¬ store →
      memWrite (s.par.regmap.offset (.cntctl c)) 2 v s =
        .ok (s.modHw c fun h => { h with cntctl := stored, tb := gate, cnt := compose h.preLo h.preHi })) ∧
    (¬ load → clear → ¬ store →
      memWrite (s.par.regmap.offset (.cntctl c)) 2 v s =
        .ok (s.modHw c fun h => { h with cntctl := stored, tb := gate, cnt := 0 })) ∧
    (¬ load → ¬ clear → store →
      memWrite (s.par.regmap.offset (.cntctl c)) 2 v s =
        .ok (s.modHw c fun h => { h with cntctl := stored, tb := gate, lat := h.cnt })) ∧
    (¬ load → ¬ clear → ¬ store →
      memWrite (s.par.regmap.offset (.cntctl c)) 2 v s =
        .ok (s.modHw c fun h => { h with cntctl := stored, tb := gate }))

/-- A write to PEND0 or PEND1 is write-one-to-clear for its two channels, bit by bit; it ignores the reserved bits and
changes nothing else (R60). Spec decisions D6, D10 (log 15). -/
def Obligations.PendingWriteOneToClear : Prop :=
  ∀ (s : State) (v : Reg16), s.par.Wf →
    (∃ t, memWrite (s.par.regmap.offset .pend0) 2 v s = .ok t ∧ t = { s with hw := t.hw } ∧
      ∀ c, t.hw.get c = { s.hw.get c with pend := (t.hw.get c).pend } ∧
        ∀ k, k < 5 → (t.hw.get c).pend.getLsbD k =
          ((s.hw.get c).pend.getLsbD k && !((c == .chA || c == .chB) && v.getLsbD (s.par.pend.sh.get c + k)))) ∧
    (∃ t, memWrite (s.par.regmap.offset .pend1) 2 v s = .ok t ∧ t = { s with hw := t.hw } ∧
      ∀ c, t.hw.get c = { s.hw.get c with pend := (t.hw.get c).pend } ∧
        ∀ k, k < 5 → (t.hw.get c).pend.getLsbD k =
          ((s.hw.get c).pend.getLsbD k && !((c == .chC || c == .chD) && v.getLsbD (s.par.pend.sh.get c + k))))

/-- The four readable registers: CNT_LO and CNT_HI show the latch; PEND0 and PEND1 show their two channels' flags at
their places, whatever the reserved bits are drawn as; no read changes a register (R56, R14). The count of draws is
the model's (log 7). Spec decisions D6, D10 (log 15). -/
def Obligations.RegisterReadsMeaning : Prop :=
  ∀ (s : State) (c : Chan), s.par.Wf →
    memRead (s.par.regmap.offset (.cntLo c)) 2 s = .ok (lo16 (s.hw.get c).lat, s) ∧
    memRead (s.par.regmap.offset (.cntHi c)) 2 s = .ok (hi16 (s.hw.get c).lat, s) ∧
    (∃ v, memRead (s.par.regmap.offset .pend0) 2 s = .ok (v, { s with draws := s.draws + 1 }) ∧
      takeFlags s.par.pend .chA v = (s.hw.get .chA).pend ∧ takeFlags s.par.pend .chB v = (s.hw.get .chB).pend) ∧
    (∃ v, memRead (s.par.regmap.offset .pend1) 2 s = .ok (v, { s with draws := s.draws + 1 }) ∧
      takeFlags s.par.pend .chC v = (s.hw.get .chC).pend ∧ takeFlags s.par.pend .chD v = (s.hw.get .chD).pend)

/-- An access of a size other than 2, at an odd offset or at an offset with no register has no meaning (R55); nor has
a read of a register other than the four (R56) or a write to CNT_LO or CNT_HI (R61). Spec decisions D9, D10 (log 15).
-/
def Obligations.MeaninglessAccessesRefused : Prop :=
  ∀ (s : State) (v : Reg16),
    (∀ (addr size : Nat), size ≠ 2 ∨ addr % 2 = 1 ∨ (∀ r, s.par.regmap.offset r ≠ addr) →
      memWrite addr size v s = .error .badAccess ∧ memRead addr size s = .error .badAccess) ∧
    (∀ (r : Reg), s.par.Wf → (∀ c, r ≠ .cntLo c ∧ r ≠ .cntHi c) → r ≠ .pend0 → r ≠ .pend1 →
      memRead (s.par.regmap.offset r) 2 s = .error .unreadable) ∧
    (∀ c : Chan, s.par.Wf →
      memWrite (s.par.regmap.offset (.cntLo c)) 2 v s = .error .readOnly ∧
      memWrite (s.par.regmap.offset (.cntHi c)) 2 v s = .error .readOnly)

/-- The default register map and layouts satisfy their well-formedness conditions (R20, R24, R28, R52, R53). Spec
decisions D3, D4, D5, D6 (log 15). -/
def Obligations.DefaultParametersWellFormed : Prop :=
  Params.default.Wf ∧ (Reg.all.map RegMap.default.offset).length = 46

/-- The control words under the default layouts: `CCTL(c) = mode | (ldc << 4) | …` and `ICTL(c) = ien | …` (R21, R25).
Spec decisions D4, D5 (log 15). -/
def Obligations.DefaultControlWords : Prop :=
  ∀ r : ChanRec,
    cctlWord .default r =
      r.mode.zeroExtend 16 ||| (r.ldc.zeroExtend 16 <<< 4) ||| (r.clc.zeroExtend 16 <<< 6) |||
        (r.stc.zeroExtend 16 <<< 8) ||| (r.tst.zeroExtend 16 <<< 10) ∧
    ictlWord .default r =
      (if r.ien then 1 else 0) ||| (r.cmpirq.zeroExtend 16 <<< 1) ||| (r.cbirq.zeroExtend 16 <<< 4) |||
        ((if r.lben then 1 else 0) <<< 6) ||| ((if r.xen then 1 else 0) <<< 7)

/-! ## The CORE agent -/

/-- The CORE raises flags, disturbs the count and latch of a channel that is not quiescent, closes a gate, and changes
nothing else (R39, R41, R42, R43); a channel is quiescent exactly when MODE, LOAD, CLR and STO of CNTCTL are 0, and
then keeps its count and latch (R40). Spec decision D12 (log 15). -/
def Obligations.CoreEventsMeaning : Prop :=
  ∀ (s : State) (c : Chan) (b : BitVec 5) (n l : Word),
    coreStep (.setPending c b) s = (s.modHw c fun h => { h with pend := h.pend ||| b }) ∧
    coreStep (.gateClose c) s = (s.modHw c fun h => { h with tb := false }) ∧
    (∀ w : Reg16, quiescent s.par.cctl w = true ↔
      fieldGet s.par.cctl.fMode w = 0 ∧ fieldGet s.par.cctl.fLoad w = 0 ∧ fieldGet s.par.cctl.fClr w = 0 ∧
        fieldGet s.par.cctl.fSto w = 0) ∧
    (quiescent s.par.cctl (s.hw.get c).cntctl = false →
      coreStep (.perturb c n l) s = s.modHw c fun h => { h with cnt := n, lat := l }) ∧
    (quiescent s.par.cctl (s.hw.get c).cntctl = true → ∀ es : List CoreEvent,
      ((coreEvents es s).hw.get c).cnt = (s.hw.get c).cnt ∧ ((coreEvents es s).hw.get c).lat = (s.hw.get c).lat)

/-! ## Interrupts -/

/-- INT_REQ (R231). Spec decision D13 (log 15). -/
def Obligations.IntReqMeaning : Prop :=
  ∀ s : State,
    intReq s = true ↔ ∃ c, fieldGet s.par.ictl.fIen (s.hw.get c).intctl = 1 ∧ (s.hw.get c).pend ≠ 0

/-- When the handler may be invoked (R232, R65, R66): not in a masked section and not inside another invocation; while
not live it answers NOT_MINE with no other change; else it is entered: `inh` is set, control goes to h1, and the
interrupted command keeps its position, its locals and every other element (R246). Its list is h1 to h11 in order,
with the per-edge update and its two branches at h7 (R233 to R241, R168 to R170); the write-backs precede the
semaphore signals (R72). Spec decisions D2, D13, D20, D24 (log 15). -/
def Obligations.HandlerEntry : Prop :=
  ∀ s : State,
    (s.imask = true ∨ s.inh = true → irqStep s = s) ∧
    (s.imask = false → s.inh = false → s.live = false → irqStep s = { s with hport := .notMine }) ∧
    (s.imask = false → s.inh = false → s.live = true →
      irqStep s = { s with inh := true, hprog := handlerSteps, hloc := .clear }) ∧
    handlerSteps =
      [Act.hPend0, .hPend1, .hFold, .write .pend0 .maskLo, .write .pend1 .maskHi, .hOwn, .hEdge].map Act.always ++
      [Act.hCntLo, .hCntHi, .hDecide].map (fun a => a.under .edge) ++
      [Act.hCompute, .write (.preLo .chB) .s1Lo, .write (.preHi .chB) .s1Hi, .write (.preLo .chC) .s2Lo,
        .write (.preHi .chC) .s2Hi].map (fun a => a.under .recompute) ++
      [Act.write (.preLo .chB) (.const 0xFFFF), .write (.preHi .chB) (.const 0x7FFF),
        .write (.preLo .chC) (.const 0xFFFF), .write (.preHi .chC) (.const 0x7FFF), .setXen .chA false,
        .write (.intctl .chA) (.ictl .chA), .ienOff .chA, .pssZero .chA, .write (.intctl .chA) (.ictl .chA),
        .setPtarmed false].map (fun a => a.under .teardown) ++
      [Act.hCount, .hSem, .hNotify, .hEnd].map Act.always

/-- While an invocation runs no command micro-step happens and no second invocation starts (R65, R241), for a state in
which `inh` is set during an invocation. Spec decision D20 (log 15). -/
def Obligations.HandlerRunsToCompletion : Prop :=
  ∀ (s t : State) (e : Event), s.ContextInv → s.hprog ≠ [] → eventStep e s = .next t →
    t.prog = s.prog ∧ t.hprog <:+ s.hprog

/-- An invocation that finds no flag of an enabled channel answers NOT_MINE; all it changes is to zero the shadows of
disabled channels (R233 to R236). The count of draws is the model's (log 7). Spec decision D10 (log 15). -/
def Obligations.InvocationNotMine : Prop :=
  ∀ s : State, s.Ready → qualifies s = false →
    step { s with script := [.irq] } = .next { s.folded with hport := .notMine, hloc := .clear }

/-- A qualifying invocation with the pretrigger inactive: the flags of the enabled channels are folded into their
shadows and cleared, those of disabled channels stay; one more event counted; semaphores and notifications; MINE (R233
to R241, R168 p0). In any invocation a flag that the CORE raises after its register was read, in a position read as
zero, survives the write-back (R235). Spec decisions D10, D14, D15, D22, D26 (log 15). -/
def Obligations.InvocationMine : Prop :=
  (∀ s : State, s.Ready → qualifies s = true → s.ptarmed = false → s.par.ptIdleTeardown = false →
    step { s with script := [.irq] } = .next (s.folded.handledFrom s)) ∧
  (∀ (s : State) (c : Chan) (b : BitVec 5) (es : List Event), s.Ready →
    (es = [.irq, .go, .core (.setPending c b)] ∧ (c = .chA ∨ c = .chB)) ∨
      es = [.irq, .go, .go, .core (.setPending c b)] →
    ∃ t, step { s with script := es } = .next t ∧
      ∀ d, (t.hw.get d).pend =
        (if d = c then (s.hw.get d).pend ||| b else (s.hw.get d).pend) &&& ~~~(fired s d))

/-- A qualifying invocation while armed (or with PT_IDLE_TEARDOWN) and with `pten = 1` recomputes the two slave
preloads from the latched count of channel A and the offset, modulo 2^32 (R168, R169). Spec decisions D15, D19 (log
15). -/
def Obligations.InvocationRecomputes : Prop :=
  ∀ s : State, s.Ready → qualifies s = true → s.ptarmed = true ∨ s.par.ptIdleTeardown = true → s.pten = true →
    step { s with script := [.irq] } = .next (s.folded.recomputed.handledFrom s)

/-- A qualifying invocation while armed (or with PT_IDLE_TEARDOWN) with the request withdrawn performs the teardown:
both slave preloads 0x7FFFFFFF, channel A's external-edge and channel enables off, its shadow zero, the record and
INTCTL[A] in agreement, `ptarmed` off (R168, R170). Spec decisions D15, D32 (log 15). -/
def Obligations.InvocationTearsDown : Prop :=
  ∀ s : State, s.Ready → qualifies s = true → s.ptarmed = true ∨ s.par.ptIdleTeardown = true → s.pten = false →
    step { s with script := [.irq] } = .next (s.folded.tornDown.handledFrom s)

/-! ## Invariants -/

/-- The state after reset satisfies the invariants below (the spec's part: not live, no masked section, no invocation,
no event recorded, R45; the rest is the model's choice, logs 1, 2 and 3). Spec decision D25 (log 15). -/
def Obligations.ResetSatisfiesInvariants : Prop :=
  State.reset.DomainInv ∧ State.reset.ContextInv ∧ State.reset.IdleInv ∧
  State.reset.live = false ∧ State.reset.imask = false ∧ State.reset.inh = false ∧ State.reset.evs = []

/-- Every step keeps the record fields in their domains, no immediate code persisted and the offset at least 25, at
every micro-step and under every schedule (R44, R15). -/
def Obligations.StepKeepsDomains : Prop :=
  ∀ s t : State, s.DomainInv → step s = .next t → t.DomainInv

/-- Every step keeps the handler's position a place in h1 to h11, `inh` set exactly while it has one, and its
micro-steps out of commands (R34, R241, R243). -/
def Obligations.StepKeepsContexts : Prop :=
  ∀ s t : State, s.ContextInv → step s = .next t → t.ContextInv

/-- "Shadow and hardware never diverge": from an idle block whose mirrors agree, every run under every schedule of
CORE events, handler invocations, timers and commands that ends idle ends with the mirrors in agreement (R44). -/
def Obligations.MirrorsAgreeWhenIdle : Prop :=
  ∀ (n : Nat) (s t : State), s.IdleInv → runs n s t → t.prog = [] → t.hprog = [] → t.IdleInv

/-- Disabling always ends with `ien = 0` and `pss = 0`: for every prior value and every schedule, if SET.IRQEN c, 0
completes, channel c is disabled and its shadow is zero (R140, R267; test vector S3). Spec decision D21 (log 15). -/
def Obligations.DisableZeroesShadow : Prop :=
  ∀ (c : Chan) (s t : State), s.Accepts → s.ContextInv → exec (.setIrqen c 0) s = .next t → t.prog = [] →
    (t.ch.get c).ien = false ∧ (t.ch.get c).pss = 0

/-- No command is refused inside the live window but a nonzero SET.SELFTEST: under every schedule it answers a next
state (R92, R182, R58: "no rule of this spec writes a word with more than one" immediate code). Spec decisions D11,
D24, D29 (log 15). -/
def Obligations.LiveCommandsNeverRefused : Prop :=
  ∀ (i : Instr) (s : State), s.par.Wf → s.Accepts → s.DomainInv → s.ContextInv → i ≠ .init →
    (∀ d, i = .setSelftest d → d = 0) → ∃ t, exec i s = .next t

/-- Only INIT and EXIT change `live` (R33). Spec decision D24 (log 15). -/
def Obligations.OnlyInitAndExitChangeLive : Prop :=
  ∀ (i : Instr) (s t : State), s.ContextInv → i ≠ .init → i ≠ .exit → exec i s = .next t → t.live = s.live

/-- No step changes an open parameter, and the output event list only grows (R4, R36). Spec decision D14 (log 15). -/
def Obligations.StepKeepsParametersAndEvents : Prop :=
  ∀ s t : State, step s = .next t → t.par = s.par ∧ ∃ es, t.evs = s.evs ++ es
end

