-- ==== Sys2Proof/Laws/Fields.lean ====
section
/-!
SUPPORT. Sys2Proof/Laws/Fields.lean: halves of 32-bit quantities, fields of register words, and what the fields of the
count-control word, the interrupt-control word and the pending-flag registers read as, for every well-formed layout.
-/

namespace Sys2Proof.Machine

/-! ## Halves -/

@[simp] theorem lo16_compose (l h : Reg16) : lo16 (compose l h) = l := by
  ext i hi
  simp [lo16, compose, BitVec.getLsbD_eq_getElem, hi, show i < 32 by omega]

@[simp] theorem hi16_compose (l h : Reg16) : hi16 (compose l h) = h := by
  ext i hi
  simp [hi16, compose, BitVec.getLsbD_eq_getElem, hi, show 16 + i < 32 by omega]

@[simp] theorem compose_halves (v : Word) : compose (lo16 v) (hi16 v) = v := by
  ext i hi
  simp only [compose, lo16, hi16]
  by_cases h : i < 16
  · simp [h, BitVec.getLsbD_eq_getElem, hi]
  · have : 16 + (i - 16) = i := by omega
    simp [h, BitVec.getLsbD_eq_getElem, hi, this]
    omega

/-! ## Fields -/

theorem getLsbD_lowMask (n i : Nat) : (lowMask n).getLsbD i = (decide (i < 16) && decide (i < n)) := by
  simp [lowMask, BitVec.getLsbD_ofNat, Nat.testBit_two_pow_sub_one]

/-- A bit of a field value at its place. -/
theorem getLsbD_fieldPut (f : Field) (v : Reg16) (i : Nat) :
    (fieldPut f v).getLsbD i =
      (decide (i < 16) && (decide (f.pos ≤ i) && (decide (i < f.pos + f.width) && v.getLsbD (i - f.pos)))) := by
  rw [Bool.eq_iff_iff]
  simp only [fieldPut, BitVec.getLsbD_shiftLeft, BitVec.getLsbD_and, getLsbD_lowMask, Bool.and_eq_true,
    decide_eq_true_eq, Bool.not_eq_true', decide_eq_false_iff_not]
  constructor
  · rintro ⟨⟨h1, h2⟩, h3, h4, h5⟩; exact ⟨h1, by omega, by omega, h3⟩
  · rintro ⟨h1, h2, h3, h4⟩; exact ⟨⟨h1, by omega⟩, h4, by omega, by omega⟩

/-- A bit of the value of a field. -/
theorem getLsbD_fieldGet (f : Field) (w : Reg16) (i : Nat) :
    (fieldGet f w).getLsbD i = (w.getLsbD (f.pos + i) && (decide (i < 16) && decide (i < f.width))) := by
  simp [fieldGet, BitVec.getLsbD_and, BitVec.getLsbD_ushiftRight, getLsbD_lowMask]

@[simp] theorem fieldGet_or (f : Field) (v w : Reg16) : fieldGet f (v ||| w) = fieldGet f v ||| fieldGet f w := by
  ext i hi
  simp only [← BitVec.getLsbD_eq_getElem, BitVec.getLsbD_or, getLsbD_fieldGet]
  cases w.getLsbD (f.pos + i) <;> cases v.getLsbD (f.pos + i) <;> simp

/-- A field reads the value put into it, cut to its width. -/
theorem fieldGet_fieldPut_self {f : Field} (h : f.Fits) (v : Reg16) :
    fieldGet f (fieldPut f v) = v &&& lowMask f.width := by
  have h' : f.pos + f.width ≤ 16 := h
  apply BitVec.eq_of_getLsbD_eq
  intro i hi
  rw [Bool.eq_iff_iff]
  simp only [getLsbD_fieldGet, getLsbD_fieldPut, BitVec.getLsbD_and, getLsbD_lowMask, Bool.and_eq_true,
    decide_eq_true_eq, Nat.add_sub_cancel_left]
  constructor
  · rintro ⟨⟨_, _, _, h4⟩, h5, h6⟩; exact ⟨h4, h5, h6⟩
  · rintro ⟨h1, h2, h3⟩; exact ⟨⟨by omega, by omega, by omega, h1⟩, h2, h3⟩

/-- A field reads zero from a value put into a field it shares no bit with. -/
theorem fieldGet_fieldPut_disjoint {f g : Field} (h : f.Disjoint g) (v : Reg16) :
    fieldGet f (fieldPut g v) = 0 := by
  have h' : f.pos + f.width ≤ g.pos ∨ g.pos + g.width ≤ f.pos := h
  apply BitVec.eq_of_getLsbD_eq
  intro i hi
  simp only [getLsbD_fieldGet, getLsbD_fieldPut]
  by_cases hw : i < f.width
  · by_cases hg : g.pos ≤ f.pos + i
    · have : ¬ f.pos + i < g.pos + g.width := by omega
      simp [this]
    · simp [hg]
  · simp [hw]

/-- A value put into a field keeps its bits when another field's bits are cleared. -/
theorem fieldPut_and_not_mask {f g : Field} (h : f.Disjoint g) (v : Reg16) :
    fieldPut f v &&& ~~~(fieldMask g) = fieldPut f v := by
  have h' : f.pos + f.width ≤ g.pos ∨ g.pos + g.width ≤ f.pos := h
  apply BitVec.eq_of_getLsbD_eq
  intro i hi
  rw [Bool.eq_iff_iff]
  simp only [fieldMask, BitVec.getLsbD_and, BitVec.getLsbD_not, getLsbD_fieldPut, Bool.and_eq_true, decide_eq_true_eq,
    Bool.not_eq_true', hi, Bool.and_eq_false_iff, decide_eq_false_iff_not, true_and]
  constructor
  · rintro ⟨h1, _⟩; exact h1
  · rintro ⟨h1, h2, h3⟩
    refine ⟨⟨h1, h2, h3⟩, ?_⟩
    rcases h' with h' | h'
    · exact Or.inr (Or.inl (by omega))
    · exact Or.inr (Or.inr (Or.inl (by omega)))

/-- Clearing a field removes a value put into it. -/
theorem fieldPut_and_not_mask_self (f : Field) (v : Reg16) : fieldPut f v &&& ~~~(fieldMask f) = 0 := by
  apply BitVec.eq_of_getLsbD_eq
  intro i hi
  simp only [fieldMask, BitVec.getLsbD_and, BitVec.getLsbD_not, getLsbD_fieldPut, hi,
    BitVec.getLsbD_allOnes]
  by_cases h1 : f.pos ≤ i <;> by_cases h2 : i < f.pos + f.width <;> simp [h1, h2]
  intro _; omega

/-- A field value of `n` bits loses nothing when it is cut to a width of at least `n`. -/
theorem zeroExtend_and_lowMask {n : Nat} (v : BitVec n) (w : Nat) (h : n ≤ w) :
    v.zeroExtend 16 &&& lowMask w = v.zeroExtend 16 := by
  apply BitVec.eq_of_getLsbD_eq
  intro i hi
  simp only [BitVec.getLsbD_and, getLsbD_lowMask, BitVec.truncate_eq_setWidth, BitVec.getLsbD_setWidth, hi, decide_true,
    Bool.true_and]
  by_cases hn : i < n
  · simp [show i < w by omega]
  · simp [BitVec.getLsbD_of_ge v i (by omega)]

/-! ## The count-control word -/

variable {l : CctlLayout}

/-- The pairs of fields of a well-formed count-control layout, disjoint each way, and inside the word. -/
theorem CctlLayout_wf_facts (h : l.Wf) :
    (l.fMode.Fits ∧ l.fLoad.Fits ∧ l.fClr.Fits ∧ l.fSto.Fits ∧ l.fTstart.Fits ∧ l.fTb.Fits) ∧
    (l.fMode.Disjoint l.fLoad ∧ l.fMode.Disjoint l.fClr ∧ l.fMode.Disjoint l.fSto ∧ l.fMode.Disjoint l.fTstart ∧
      l.fMode.Disjoint l.fTb) ∧
    (l.fLoad.Disjoint l.fClr ∧ l.fLoad.Disjoint l.fSto ∧ l.fLoad.Disjoint l.fTstart ∧ l.fLoad.Disjoint l.fTb) ∧
    (l.fClr.Disjoint l.fSto ∧ l.fClr.Disjoint l.fTstart ∧ l.fClr.Disjoint l.fTb) ∧
    (l.fSto.Disjoint l.fTstart ∧ l.fSto.Disjoint l.fTb) ∧ l.fTstart.Disjoint l.fTb := by
  obtain ⟨hf, hp⟩ := h
  simp only [CctlLayout.fields, List.mem_cons, List.not_mem_nil, or_false, forall_eq_or_imp, forall_eq] at hf
  simp only [CctlLayout.fields, List.pairwise_cons, List.mem_cons, List.not_mem_nil, or_false, forall_eq_or_imp,
    forall_eq, List.Pairwise.nil, and_true, IsEmpty.forall_iff, implies_true] at hp
  obtain ⟨hm, hl, hc, hs, ht⟩ := hp
  exact ⟨hf, hm, hl, hc, hs, ht⟩

theorem Field_disjoint_symm {f g : Field} (h : f.Disjoint g) : g.Disjoint f := Or.symm h

section Cctl
variable (h : l.Wf) (r : ChanRec)
include h

theorem fieldGet_fMode_cctlWord : fieldGet l.fMode (cctlWord l r) = r.mode.zeroExtend 16 := by
  obtain ⟨⟨f1, _⟩, ⟨d1, d2, d3, d4, _⟩, _⟩ := CctlLayout_wf_facts h
  simp only [cctlWord, fieldGet_or, fieldGet_fieldPut_self f1, fieldGet_fieldPut_disjoint d1,
    fieldGet_fieldPut_disjoint d2, fieldGet_fieldPut_disjoint d3, fieldGet_fieldPut_disjoint d4]
  have e := zeroExtend_and_lowMask r.mode 4 (by decide)
  simpa [CctlLayout.fMode, CctlLayout.fLoad, CctlLayout.fClr, CctlLayout.fSto] using e

theorem fieldGet_fLoad_cctlWord : fieldGet l.fLoad (cctlWord l r) = r.ldc.zeroExtend 16 := by
  obtain ⟨⟨_, f1, _⟩, ⟨d1, _⟩, ⟨d2, d3, d4, _⟩, _⟩ := CctlLayout_wf_facts h
  simp only [cctlWord, fieldGet_or, fieldGet_fieldPut_self f1, fieldGet_fieldPut_disjoint (Field_disjoint_symm d1),
    fieldGet_fieldPut_disjoint d2, fieldGet_fieldPut_disjoint d3, fieldGet_fieldPut_disjoint d4]
  have e := zeroExtend_and_lowMask r.ldc 2 (by decide)
  simpa [CctlLayout.fMode, CctlLayout.fLoad, CctlLayout.fClr, CctlLayout.fSto] using e

theorem fieldGet_fClr_cctlWord : fieldGet l.fClr (cctlWord l r) = r.clc.zeroExtend 16 := by
  obtain ⟨⟨_, _, f1, _⟩, ⟨_, d1, _⟩, ⟨d2, _⟩, ⟨d3, d4, _⟩, _⟩ := CctlLayout_wf_facts h
  simp only [cctlWord, fieldGet_or, fieldGet_fieldPut_self f1, fieldGet_fieldPut_disjoint (Field_disjoint_symm d1),
    fieldGet_fieldPut_disjoint (Field_disjoint_symm d2), fieldGet_fieldPut_disjoint d3, fieldGet_fieldPut_disjoint d4]
  have e := zeroExtend_and_lowMask r.clc 2 (by decide)
  simpa [CctlLayout.fMode, CctlLayout.fLoad, CctlLayout.fClr, CctlLayout.fSto] using e

theorem fieldGet_fSto_cctlWord : fieldGet l.fSto (cctlWord l r) = r.stc.zeroExtend 16 := by
  obtain ⟨⟨_, _, _, f1, _⟩, ⟨_, _, d1, _⟩, ⟨_, d2, _⟩, ⟨d3, _⟩, ⟨d4, _⟩, _⟩ := CctlLayout_wf_facts h
  simp only [cctlWord, fieldGet_or, fieldGet_fieldPut_self f1, fieldGet_fieldPut_disjoint (Field_disjoint_symm d1),
    fieldGet_fieldPut_disjoint (Field_disjoint_symm d2), fieldGet_fieldPut_disjoint (Field_disjoint_symm d3),
    fieldGet_fieldPut_disjoint d4]
  have e := zeroExtend_and_lowMask r.stc 2 (by decide)
  simpa [CctlLayout.fMode, CctlLayout.fLoad, CctlLayout.fClr, CctlLayout.fSto] using e

theorem fieldGet_fTb_cctlWord : fieldGet l.fTb (cctlWord l r) = 0 := by
  obtain ⟨_, ⟨_, _, _, _, d1⟩, ⟨_, _, _, d2⟩, ⟨_, _, d3⟩, ⟨_, d4⟩, d5⟩ := CctlLayout_wf_facts h
  simp [cctlWord, fieldGet_fieldPut_disjoint (Field_disjoint_symm d1),
    fieldGet_fieldPut_disjoint (Field_disjoint_symm d2), fieldGet_fieldPut_disjoint (Field_disjoint_symm d3),
    fieldGet_fieldPut_disjoint (Field_disjoint_symm d4), fieldGet_fieldPut_disjoint (Field_disjoint_symm d5)]

/-- `CCTL(c)` has TB = 0, so it is stored as it is written (R21, R58). -/
theorem withoutTb_cctlWord : withoutTb l (cctlWord l r) = cctlWord l r := by
  obtain ⟨_, ⟨_, _, _, _, d1⟩, ⟨_, _, _, d2⟩, ⟨_, _, d3⟩, ⟨_, d4⟩, d5⟩ := CctlLayout_wf_facts h
  simp only [withoutTb, cctlWord, BitVec.and_or_distrib_right, fieldPut_and_not_mask d1, fieldPut_and_not_mask d2,
    fieldPut_and_not_mask d3, fieldPut_and_not_mask d4, fieldPut_and_not_mask d5]

/-- `CCTL(c)` with TB = 1 is stored as `CCTL(c)` (R59, R109). -/
theorem withoutTb_cctlWord_tb :
    withoutTb l (cctlWord l r ||| fieldPut l.fTb 1) = cctlWord l r := by
  have h1 := withoutTb_cctlWord h r
  simp only [withoutTb] at h1 ⊢
  rw [BitVec.and_or_distrib_right, h1, fieldPut_and_not_mask_self]
  simp

omit h in
theorem zeroExtend16_eq_two (v : BitVec 2) : ((v.zeroExtend 16 : Reg16) == 2) = (v == 2) := by
  revert v; decide

omit h in
theorem zeroExtend16_eq_one (v : BitVec 2) : ((v.zeroExtend 16 : Reg16) == 1) = (v == 1) := by
  revert v; decide

theorem loadNow_cctlWord : loadNow l (cctlWord l r) = (r.ldc == 2) := by
  rw [loadNow, fieldGet_fLoad_cctlWord h, zeroExtend16_eq_two]

theorem clearNow_cctlWord : clearNow l (cctlWord l r) = (r.clc == 2) := by
  rw [clearNow, fieldGet_fClr_cctlWord h, zeroExtend16_eq_two]

theorem storeNow_cctlWord : storeNow l (cctlWord l r) = (r.stc == 1) := by
  rw [storeNow, fieldGet_fSto_cctlWord h, zeroExtend16_eq_one]

theorem gateNow_cctlWord : gateNow l (cctlWord l r) = false := by
  rw [gateNow, fieldGet_fTb_cctlWord h]; decide

theorem loadNow_cctlWord_tb : loadNow l (cctlWord l r ||| fieldPut l.fTb 1) = (r.ldc == 2) := by
  obtain ⟨_, _, ⟨_, _, _, d2⟩, _⟩ := CctlLayout_wf_facts h
  rw [loadNow, fieldGet_or, fieldGet_fieldPut_disjoint d2, fieldGet_fLoad_cctlWord h]
  simpa using zeroExtend16_eq_two r.ldc

theorem clearNow_cctlWord_tb : clearNow l (cctlWord l r ||| fieldPut l.fTb 1) = (r.clc == 2) := by
  obtain ⟨_, _, _, ⟨_, _, d3⟩, _⟩ := CctlLayout_wf_facts h
  rw [clearNow, fieldGet_or, fieldGet_fieldPut_disjoint d3, fieldGet_fClr_cctlWord h]
  simpa using zeroExtend16_eq_two r.clc

theorem storeNow_cctlWord_tb : storeNow l (cctlWord l r ||| fieldPut l.fTb 1) = (r.stc == 1) := by
  obtain ⟨_, _, _, _, ⟨_, d4⟩, _⟩ := CctlLayout_wf_facts h
  rw [storeNow, fieldGet_or, fieldGet_fieldPut_disjoint d4, fieldGet_fSto_cctlWord h]
  simpa using zeroExtend16_eq_one r.stc

theorem gateNow_cctlWord_tb : gateNow l (cctlWord l r ||| fieldPut l.fTb 1) = true := by
  obtain ⟨⟨_, _, _, _, _, f6⟩, _⟩ := CctlLayout_wf_facts h
  rw [gateNow, fieldGet_or, fieldGet_fTb_cctlWord h, fieldGet_fieldPut_self f6]
  simp only [CctlLayout.fTb]
  decide

/-- The zero word, written by EXIT, asks for no action (R207). -/
theorem quiescent_cctlWord :
    quiescent l (cctlWord l r) = (r.mode == 0 && r.ldc == 0 && r.clc == 0 && r.stc == 0) := by
  have z4 : ∀ v : BitVec 4, ((v.zeroExtend 16 : Reg16) == 0) = (v == 0) := by decide
  have z2 : ∀ v : BitVec 2, ((v.zeroExtend 16 : Reg16) == 0) = (v == 0) := by decide
  rw [quiescent, fieldGet_fMode_cctlWord h, fieldGet_fLoad_cctlWord h, fieldGet_fClr_cctlWord h,
    fieldGet_fSto_cctlWord h, z4, z2, z2, z2]

end Cctl

@[simp] theorem fieldGet_zero (f : Field) : fieldGet f 0#16 = 0#16 := by simp [fieldGet]
@[simp] theorem loadNow_zero (l : CctlLayout) : loadNow l 0#16 = false := by simp [loadNow]
@[simp] theorem clearNow_zero (l : CctlLayout) : clearNow l 0#16 = false := by simp [clearNow]
@[simp] theorem storeNow_zero (l : CctlLayout) : storeNow l 0#16 = false := by simp [storeNow]
@[simp] theorem gateNow_zero (l : CctlLayout) : gateNow l 0#16 = false := by simp [gateNow]
@[simp] theorem withoutTb_zero (l : CctlLayout) : withoutTb l 0#16 = 0#16 := by simp [withoutTb]

/-! ## The interrupt-control word -/

/-- IEN of `ICTL(c)` is `ch[c].ien` (R25). -/
theorem fieldGet_fIen_ictlWord {l : IctlLayout} (h : l.Wf) (r : ChanRec) :
    fieldGet l.fIen (ictlWord l r) = bit16 r.ien := by
  obtain ⟨hf, hp⟩ := h
  simp only [IctlLayout.fields, List.mem_cons, List.not_mem_nil, or_false, forall_eq_or_imp, forall_eq] at hf
  simp only [IctlLayout.fields, List.pairwise_cons, List.mem_cons, List.not_mem_nil, or_false, forall_eq_or_imp,
    forall_eq, List.Pairwise.nil, and_true, IsEmpty.forall_iff, implies_true] at hp
  obtain ⟨⟨d1, d2, d3, d4⟩, _⟩ := hp
  simp only [ictlWord, fieldGet_or, fieldGet_fieldPut_self hf.1, fieldGet_fieldPut_disjoint d1,
    fieldGet_fieldPut_disjoint d2, fieldGet_fieldPut_disjoint d3, fieldGet_fieldPut_disjoint d4]
  cases r.ien <;> simp only [bit16, IctlLayout.fIen] <;> decide

end Sys2Proof.Machine
end

