-- ==== Sys2Proof/Laws/State.lean ====
section
/-!
SUPPORT. Sys2Proof/Laws/State.lean: the small lemmas of the containers and of the named updates of State: one lemma
per field per update, so that no later proof unfolds an update.
-/

namespace Sys2Proof

/-! ## Containers -/

@[simp] theorem Quad.get_set_self {α : Type} (q : Quad α) (c : Chan) (x : α) : (q.set c x).get c = x := by
  cases c <;> rfl

theorem Quad.get_set {α : Type} (q : Quad α) (c d : Chan) (x : α) :
    (q.set c x).get d = if d = c then x else q.get d := by
  cases c <;> cases d <;> rfl

@[simp] theorem Quad.get_set_ne {α : Type} (q : Quad α) {c d : Chan} (h : d ≠ c) (x : α) :
    (q.set c x).get d = q.get d := by
  rw [Quad.get_set, if_neg h]

@[simp] theorem Quad.set_set {α : Type} (q : Quad α) (c : Chan) (x y : α) : (q.set c x).set c y = q.set c y := by
  cases c <;> rfl

@[simp] theorem Quad.set_get_self {α : Type} (q : Quad α) (c : Chan) : q.set c (q.get c) = q := by
  cases c <;> rfl

@[simp] theorem Quad.get_fill {α : Type} (x : α) (c : Chan) : (Quad.fill x).get c = x := by
  cases c <;> rfl

/-- Two quads with the same four values are equal. -/
theorem Quad.ext_get {α : Type} {p q : Quad α} (h : ∀ c, p.get c = q.get c) : p = q := by
  cases p; cases q
  have ha := h .chA; have hb := h .chB; have hc := h .chC; have hd := h .chD
  simp only [Quad.get] at ha hb hc hd
  subst ha hb hc hd; rfl

@[simp] theorem Slots.get_set_self (s : Slots) (k : Kind) (o : Option Word) : (s.set k o).get k = o := by
  cases k <;> rfl

theorem Slots.get_set (s : Slots) (k j : Kind) (o : Option Word) :
    (s.set k o).get j = if j = k then o else s.get j := by
  cases k <;> cases j <;> rfl

@[simp] theorem Slots.get_empty (k : Kind) : Slots.empty.get k = none := by cases k <;> rfl

theorem Chan.mem_all (c : Chan) : c ∈ Chan.all := by cases c <;> decide

theorem Kind.mem_all (k : Kind) : k ∈ Kind.all := by cases k <;> decide

theorem Reg.mem_all (r : Reg) : r ∈ Reg.all := by
  cases r with
  | cntctl c | cmpaLo c | cmpaHi c | cmpbLo c | cmpbHi c | preLo c | preHi c | intctl c | cntLo c | cntHi c =>
    cases c <;> decide
  | _ => decide

end Sys2Proof

namespace Sys2Proof.Machine

variable (s : State) (c : Chan)

/-! ## A channel record changed -/

@[simp] theorem modRec_par (f : ChanRec → ChanRec) : (s.modRec c f).par = s.par := rfl
@[simp] theorem modRec_hw (f : ChanRec → ChanRec) : (s.modRec c f).hw = s.hw := rfl
@[simp] theorem modRec_outctl0 (f : ChanRec → ChanRec) : (s.modRec c f).outctl0 = s.outctl0 := rfl
@[simp] theorem modRec_outctl1 (f : ChanRec → ChanRec) : (s.modRec c f).outctl1 = s.outctl1 := rfl
@[simp] theorem modRec_outcfg (f : ChanRec → ChanRec) : (s.modRec c f).outcfg = s.outcfg := rfl
@[simp] theorem modRec_selftest (f : ChanRec → ChanRec) : (s.modRec c f).selftest = s.selftest := rfl
@[simp] theorem modRec_ch (f : ChanRec → ChanRec) : (s.modRec c f).ch = s.ch.set c (f (s.ch.get c)) := rfl
@[simp] theorem modRec_octl0 (f : ChanRec → ChanRec) : (s.modRec c f).octl0 = s.octl0 := rfl
@[simp] theorem modRec_octl1 (f : ChanRec → ChanRec) : (s.modRec c f).octl1 = s.octl1 := rfl
@[simp] theorem modRec_ocfg (f : ChanRec → ChanRec) : (s.modRec c f).ocfg = s.ocfg := rfl
@[simp] theorem modRec_stest (f : ChanRec → ChanRec) : (s.modRec c f).stest = s.stest := rfl
@[simp] theorem modRec_irqcnt (f : ChanRec → ChanRec) : (s.modRec c f).irqcnt = s.irqcnt := rfl
@[simp] theorem modRec_ptofs (f : ChanRec → ChanRec) : (s.modRec c f).ptofs = s.ptofs := rfl
@[simp] theorem modRec_pten (f : ChanRec → ChanRec) : (s.modRec c f).pten = s.pten := rfl
@[simp] theorem modRec_ptarmed (f : ChanRec → ChanRec) : (s.modRec c f).ptarmed = s.ptarmed := rfl
@[simp] theorem modRec_live (f : ChanRec → ChanRec) : (s.modRec c f).live = s.live := rfl
@[simp] theorem modRec_imask (f : ChanRec → ChanRec) : (s.modRec c f).imask = s.imask := rfl
@[simp] theorem modRec_inh (f : ChanRec → ChanRec) : (s.modRec c f).inh = s.inh := rfl
@[simp] theorem modRec_evs (f : ChanRec → ChanRec) : (s.modRec c f).evs = s.evs := rfl
@[simp] theorem modRec_status (f : ChanRec → ChanRec) : (s.modRec c f).status = s.status := rfl
@[simp] theorem modRec_rdata (f : ChanRec → ChanRec) : (s.modRec c f).rdata = s.rdata := rfl
@[simp] theorem modRec_hport (f : ChanRec → ChanRec) : (s.modRec c f).hport = s.hport := rfl
@[simp] theorem modRec_cfg (f : ChanRec → ChanRec) : (s.modRec c f).cfg = s.cfg := rfl
@[simp] theorem modRec_prog (f : ChanRec → ChanRec) : (s.modRec c f).prog = s.prog := rfl
@[simp] theorem modRec_loc (f : ChanRec → ChanRec) : (s.modRec c f).loc = s.loc := rfl
@[simp] theorem modRec_hprog (f : ChanRec → ChanRec) : (s.modRec c f).hprog = s.hprog := rfl
@[simp] theorem modRec_hloc (f : ChanRec → ChanRec) : (s.modRec c f).hloc = s.hloc := rfl
@[simp] theorem modRec_inbox (f : ChanRec → ChanRec) : (s.modRec c f).inbox = s.inbox := rfl
@[simp] theorem modRec_script (f : ChanRec → ChanRec) : (s.modRec c f).script = s.script := rfl
@[simp] theorem modRec_draws (f : ChanRec → ChanRec) : (s.modRec c f).draws = s.draws := rfl

/-! ## The hardware of a channel changed -/

@[simp] theorem modHw_par (f : HwChan → HwChan) : (s.modHw c f).par = s.par := rfl
@[simp] theorem modHw_hw (f : HwChan → HwChan) : (s.modHw c f).hw = s.hw.set c (f (s.hw.get c)) := rfl
@[simp] theorem modHw_outctl0 (f : HwChan → HwChan) : (s.modHw c f).outctl0 = s.outctl0 := rfl
@[simp] theorem modHw_outctl1 (f : HwChan → HwChan) : (s.modHw c f).outctl1 = s.outctl1 := rfl
@[simp] theorem modHw_outcfg (f : HwChan → HwChan) : (s.modHw c f).outcfg = s.outcfg := rfl
@[simp] theorem modHw_selftest (f : HwChan → HwChan) : (s.modHw c f).selftest = s.selftest := rfl
@[simp] theorem modHw_ch (f : HwChan → HwChan) : (s.modHw c f).ch = s.ch := rfl
@[simp] theorem modHw_octl0 (f : HwChan → HwChan) : (s.modHw c f).octl0 = s.octl0 := rfl
@[simp] theorem modHw_octl1 (f : HwChan → HwChan) : (s.modHw c f).octl1 = s.octl1 := rfl
@[simp] theorem modHw_ocfg (f : HwChan → HwChan) : (s.modHw c f).ocfg = s.ocfg := rfl
@[simp] theorem modHw_stest (f : HwChan → HwChan) : (s.modHw c f).stest = s.stest := rfl
@[simp] theorem modHw_irqcnt (f : HwChan → HwChan) : (s.modHw c f).irqcnt = s.irqcnt := rfl
@[simp] theorem modHw_ptofs (f : HwChan → HwChan) : (s.modHw c f).ptofs = s.ptofs := rfl
@[simp] theorem modHw_pten (f : HwChan → HwChan) : (s.modHw c f).pten = s.pten := rfl
@[simp] theorem modHw_ptarmed (f : HwChan → HwChan) : (s.modHw c f).ptarmed = s.ptarmed := rfl
@[simp] theorem modHw_live (f : HwChan → HwChan) : (s.modHw c f).live = s.live := rfl
@[simp] theorem modHw_imask (f : HwChan → HwChan) : (s.modHw c f).imask = s.imask := rfl
@[simp] theorem modHw_inh (f : HwChan → HwChan) : (s.modHw c f).inh = s.inh := rfl
@[simp] theorem modHw_evs (f : HwChan → HwChan) : (s.modHw c f).evs = s.evs := rfl
@[simp] theorem modHw_status (f : HwChan → HwChan) : (s.modHw c f).status = s.status := rfl
@[simp] theorem modHw_rdata (f : HwChan → HwChan) : (s.modHw c f).rdata = s.rdata := rfl
@[simp] theorem modHw_hport (f : HwChan → HwChan) : (s.modHw c f).hport = s.hport := rfl
@[simp] theorem modHw_cfg (f : HwChan → HwChan) : (s.modHw c f).cfg = s.cfg := rfl
@[simp] theorem modHw_prog (f : HwChan → HwChan) : (s.modHw c f).prog = s.prog := rfl
@[simp] theorem modHw_loc (f : HwChan → HwChan) : (s.modHw c f).loc = s.loc := rfl
@[simp] theorem modHw_hprog (f : HwChan → HwChan) : (s.modHw c f).hprog = s.hprog := rfl
@[simp] theorem modHw_hloc (f : HwChan → HwChan) : (s.modHw c f).hloc = s.hloc := rfl
@[simp] theorem modHw_inbox (f : HwChan → HwChan) : (s.modHw c f).inbox = s.inbox := rfl
@[simp] theorem modHw_script (f : HwChan → HwChan) : (s.modHw c f).script = s.script := rfl
@[simp] theorem modHw_draws (f : HwChan → HwChan) : (s.modHw c f).draws = s.draws := rfl

/-! ## A response -/

@[simp] theorem respond_par (code : BitVec 4) (v : Word) : (s.respond code v).par = s.par := rfl
@[simp] theorem respond_hw (code : BitVec 4) (v : Word) : (s.respond code v).hw = s.hw := rfl
@[simp] theorem respond_outctl0 (code : BitVec 4) (v : Word) : (s.respond code v).outctl0 = s.outctl0 := rfl
@[simp] theorem respond_outctl1 (code : BitVec 4) (v : Word) : (s.respond code v).outctl1 = s.outctl1 := rfl
@[simp] theorem respond_outcfg (code : BitVec 4) (v : Word) : (s.respond code v).outcfg = s.outcfg := rfl
@[simp] theorem respond_selftest (code : BitVec 4) (v : Word) : (s.respond code v).selftest = s.selftest := rfl
@[simp] theorem respond_ch (code : BitVec 4) (v : Word) : (s.respond code v).ch = s.ch := rfl
@[simp] theorem respond_octl0 (code : BitVec 4) (v : Word) : (s.respond code v).octl0 = s.octl0 := rfl
@[simp] theorem respond_octl1 (code : BitVec 4) (v : Word) : (s.respond code v).octl1 = s.octl1 := rfl
@[simp] theorem respond_ocfg (code : BitVec 4) (v : Word) : (s.respond code v).ocfg = s.ocfg := rfl
@[simp] theorem respond_stest (code : BitVec 4) (v : Word) : (s.respond code v).stest = s.stest := rfl
@[simp] theorem respond_irqcnt (code : BitVec 4) (v : Word) : (s.respond code v).irqcnt = s.irqcnt := rfl
@[simp] theorem respond_ptofs (code : BitVec 4) (v : Word) : (s.respond code v).ptofs = s.ptofs := rfl
@[simp] theorem respond_pten (code : BitVec 4) (v : Word) : (s.respond code v).pten = s.pten := rfl
@[simp] theorem respond_ptarmed (code : BitVec 4) (v : Word) : (s.respond code v).ptarmed = s.ptarmed := rfl
@[simp] theorem respond_live (code : BitVec 4) (v : Word) : (s.respond code v).live = s.live := rfl
@[simp] theorem respond_imask (code : BitVec 4) (v : Word) : (s.respond code v).imask = s.imask := rfl
@[simp] theorem respond_inh (code : BitVec 4) (v : Word) : (s.respond code v).inh = s.inh := rfl
@[simp] theorem respond_evs (code : BitVec 4) (v : Word) : (s.respond code v).evs = s.evs := rfl
@[simp] theorem respond_status (code : BitVec 4) (v : Word) : (s.respond code v).status = code := rfl
@[simp] theorem respond_rdata (code : BitVec 4) (v : Word) : (s.respond code v).rdata = v := rfl
@[simp] theorem respond_hport (code : BitVec 4) (v : Word) : (s.respond code v).hport = s.hport := rfl
@[simp] theorem respond_cfg (code : BitVec 4) (v : Word) : (s.respond code v).cfg = s.cfg := rfl
@[simp] theorem respond_prog (code : BitVec 4) (v : Word) : (s.respond code v).prog = s.prog := rfl
@[simp] theorem respond_loc (code : BitVec 4) (v : Word) : (s.respond code v).loc = .clear := rfl
@[simp] theorem respond_hprog (code : BitVec 4) (v : Word) : (s.respond code v).hprog = s.hprog := rfl
@[simp] theorem respond_hloc (code : BitVec 4) (v : Word) : (s.respond code v).hloc = s.hloc := rfl
@[simp] theorem respond_inbox (code : BitVec 4) (v : Word) : (s.respond code v).inbox = s.inbox := rfl
@[simp] theorem respond_script (code : BitVec 4) (v : Word) : (s.respond code v).script = s.script := rfl
@[simp] theorem respond_draws (code : BitVec 4) (v : Word) : (s.respond code v).draws = s.draws := rfl

/-! ## CTL in its zero state -/

@[simp] theorem zeroCtl_par : s.zeroCtl.par = s.par := rfl
@[simp] theorem zeroCtl_hw : s.zeroCtl.hw = s.hw := rfl
@[simp] theorem zeroCtl_outctl0 : s.zeroCtl.outctl0 = s.outctl0 := rfl
@[simp] theorem zeroCtl_outctl1 : s.zeroCtl.outctl1 = s.outctl1 := rfl
@[simp] theorem zeroCtl_outcfg : s.zeroCtl.outcfg = s.outcfg := rfl
@[simp] theorem zeroCtl_selftest : s.zeroCtl.selftest = s.selftest := rfl
@[simp] theorem zeroCtl_ch : s.zeroCtl.ch = .fill .zero := rfl
@[simp] theorem zeroCtl_octl0 : s.zeroCtl.octl0 = 0 := rfl
@[simp] theorem zeroCtl_octl1 : s.zeroCtl.octl1 = 0 := rfl
@[simp] theorem zeroCtl_ocfg : s.zeroCtl.ocfg = 0 := rfl
@[simp] theorem zeroCtl_stest : s.zeroCtl.stest = 0 := rfl
@[simp] theorem zeroCtl_irqcnt : s.zeroCtl.irqcnt = 0 := rfl
@[simp] theorem zeroCtl_ptofs : s.zeroCtl.ptofs = ptMin := rfl
@[simp] theorem zeroCtl_pten : s.zeroCtl.pten = false := rfl
@[simp] theorem zeroCtl_ptarmed : s.zeroCtl.ptarmed = false := rfl
@[simp] theorem zeroCtl_live : s.zeroCtl.live = s.live := rfl
@[simp] theorem zeroCtl_imask : s.zeroCtl.imask = s.imask := rfl
@[simp] theorem zeroCtl_inh : s.zeroCtl.inh = s.inh := rfl
@[simp] theorem zeroCtl_evs : s.zeroCtl.evs = s.evs := rfl
@[simp] theorem zeroCtl_status : s.zeroCtl.status = s.status := rfl
@[simp] theorem zeroCtl_rdata : s.zeroCtl.rdata = s.rdata := rfl
@[simp] theorem zeroCtl_hport : s.zeroCtl.hport = s.hport := rfl
@[simp] theorem zeroCtl_cfg : s.zeroCtl.cfg = s.cfg := rfl
@[simp] theorem zeroCtl_prog : s.zeroCtl.prog = s.prog := rfl
@[simp] theorem zeroCtl_loc : s.zeroCtl.loc = s.loc := rfl
@[simp] theorem zeroCtl_hprog : s.zeroCtl.hprog = s.hprog := rfl
@[simp] theorem zeroCtl_hloc : s.zeroCtl.hloc = s.hloc := rfl
@[simp] theorem zeroCtl_inbox : s.zeroCtl.inbox = s.inbox := rfl
@[simp] theorem zeroCtl_script : s.zeroCtl.script = s.script := rfl
@[simp] theorem zeroCtl_draws : s.zeroCtl.draws = s.draws := rfl

/-! ## An error response -/

@[simp] theorem raise_par (code : BitVec 4) : (s.raise code).par = s.par := rfl
@[simp] theorem raise_hw (code : BitVec 4) : (s.raise code).hw = s.hw := rfl
@[simp] theorem raise_outctl0 (code : BitVec 4) : (s.raise code).outctl0 = s.outctl0 := rfl
@[simp] theorem raise_outctl1 (code : BitVec 4) : (s.raise code).outctl1 = s.outctl1 := rfl
@[simp] theorem raise_outcfg (code : BitVec 4) : (s.raise code).outcfg = s.outcfg := rfl
@[simp] theorem raise_selftest (code : BitVec 4) : (s.raise code).selftest = s.selftest := rfl
@[simp] theorem raise_ch (code : BitVec 4) : (s.raise code).ch = s.ch := rfl
@[simp] theorem raise_octl0 (code : BitVec 4) : (s.raise code).octl0 = s.octl0 := rfl
@[simp] theorem raise_octl1 (code : BitVec 4) : (s.raise code).octl1 = s.octl1 := rfl
@[simp] theorem raise_ocfg (code : BitVec 4) : (s.raise code).ocfg = s.ocfg := rfl
@[simp] theorem raise_stest (code : BitVec 4) : (s.raise code).stest = s.stest := rfl
@[simp] theorem raise_irqcnt (code : BitVec 4) : (s.raise code).irqcnt = s.irqcnt := rfl
@[simp] theorem raise_ptofs (code : BitVec 4) : (s.raise code).ptofs = s.ptofs := rfl
@[simp] theorem raise_pten (code : BitVec 4) : (s.raise code).pten = s.pten := rfl
@[simp] theorem raise_ptarmed (code : BitVec 4) : (s.raise code).ptarmed = s.ptarmed := rfl
@[simp] theorem raise_live (code : BitVec 4) : (s.raise code).live = s.live := rfl
@[simp] theorem raise_imask (code : BitVec 4) : (s.raise code).imask = s.imask := rfl
@[simp] theorem raise_inh (code : BitVec 4) : (s.raise code).inh = s.inh := rfl
@[simp] theorem raise_evs (code : BitVec 4) : (s.raise code).evs = s.evs := rfl
@[simp] theorem raise_status (code : BitVec 4) : (s.raise code).status = code := rfl
@[simp] theorem raise_rdata (code : BitVec 4) : (s.raise code).rdata = 0 := rfl
@[simp] theorem raise_hport (code : BitVec 4) : (s.raise code).hport = s.hport := rfl
@[simp] theorem raise_cfg (code : BitVec 4) : (s.raise code).cfg = s.cfg := rfl
@[simp] theorem raise_prog (code : BitVec 4) : (s.raise code).prog = s.prog := rfl
@[simp] theorem raise_loc (code : BitVec 4) : (s.raise code).loc = .clear := rfl
@[simp] theorem raise_hprog (code : BitVec 4) : (s.raise code).hprog = s.hprog := rfl
@[simp] theorem raise_hloc (code : BitVec 4) : (s.raise code).hloc = s.hloc := rfl
@[simp] theorem raise_inbox (code : BitVec 4) : (s.raise code).inbox = s.inbox := rfl
@[simp] theorem raise_script (code : BitVec 4) : (s.raise code).script = s.script := rfl
@[simp] theorem raise_draws (code : BitVec 4) : (s.raise code).draws = s.draws := rfl

/-! ## Entry to the handler -/

@[simp] theorem enterHandler_par (steps : List Micro) : (s.enterHandler steps).par = s.par := rfl
@[simp] theorem enterHandler_hw (steps : List Micro) : (s.enterHandler steps).hw = s.hw := rfl
@[simp] theorem enterHandler_outctl0 (steps : List Micro) : (s.enterHandler steps).outctl0 = s.outctl0 := rfl
@[simp] theorem enterHandler_outctl1 (steps : List Micro) : (s.enterHandler steps).outctl1 = s.outctl1 := rfl
@[simp] theorem enterHandler_outcfg (steps : List Micro) : (s.enterHandler steps).outcfg = s.outcfg := rfl
@[simp] theorem enterHandler_selftest (steps : List Micro) : (s.enterHandler steps).selftest = s.selftest := rfl
@[simp] theorem enterHandler_ch (steps : List Micro) : (s.enterHandler steps).ch = s.ch := rfl
@[simp] theorem enterHandler_octl0 (steps : List Micro) : (s.enterHandler steps).octl0 = s.octl0 := rfl
@[simp] theorem enterHandler_octl1 (steps : List Micro) : (s.enterHandler steps).octl1 = s.octl1 := rfl
@[simp] theorem enterHandler_ocfg (steps : List Micro) : (s.enterHandler steps).ocfg = s.ocfg := rfl
@[simp] theorem enterHandler_stest (steps : List Micro) : (s.enterHandler steps).stest = s.stest := rfl
@[simp] theorem enterHandler_irqcnt (steps : List Micro) : (s.enterHandler steps).irqcnt = s.irqcnt := rfl
@[simp] theorem enterHandler_ptofs (steps : List Micro) : (s.enterHandler steps).ptofs = s.ptofs := rfl
@[simp] theorem enterHandler_pten (steps : List Micro) : (s.enterHandler steps).pten = s.pten := rfl
@[simp] theorem enterHandler_ptarmed (steps : List Micro) : (s.enterHandler steps).ptarmed = s.ptarmed := rfl
@[simp] theorem enterHandler_live (steps : List Micro) : (s.enterHandler steps).live = s.live := rfl
@[simp] theorem enterHandler_imask (steps : List Micro) : (s.enterHandler steps).imask = s.imask := rfl
@[simp] theorem enterHandler_inh (steps : List Micro) : (s.enterHandler steps).inh = true := rfl
@[simp] theorem enterHandler_evs (steps : List Micro) : (s.enterHandler steps).evs = s.evs := rfl
@[simp] theorem enterHandler_status (steps : List Micro) : (s.enterHandler steps).status = s.status := rfl
@[simp] theorem enterHandler_rdata (steps : List Micro) : (s.enterHandler steps).rdata = s.rdata := rfl
@[simp] theorem enterHandler_hport (steps : List Micro) : (s.enterHandler steps).hport = s.hport := rfl
@[simp] theorem enterHandler_cfg (steps : List Micro) : (s.enterHandler steps).cfg = s.cfg := rfl
@[simp] theorem enterHandler_prog (steps : List Micro) : (s.enterHandler steps).prog = s.prog := rfl
@[simp] theorem enterHandler_loc (steps : List Micro) : (s.enterHandler steps).loc = s.loc := rfl
@[simp] theorem enterHandler_hprog (steps : List Micro) : (s.enterHandler steps).hprog = steps := rfl
@[simp] theorem enterHandler_hloc (steps : List Micro) : (s.enterHandler steps).hloc = .clear := rfl
@[simp] theorem enterHandler_inbox (steps : List Micro) : (s.enterHandler steps).inbox = s.inbox := rfl
@[simp] theorem enterHandler_script (steps : List Micro) : (s.enterHandler steps).script = s.script := rfl
@[simp] theorem enterHandler_draws (steps : List Micro) : (s.enterHandler steps).draws = s.draws := rfl

/-! ## Return from the handler -/

@[simp] theorem leaveHandler_par (result : HandlerPort) : (s.leaveHandler result).par = s.par := rfl
@[simp] theorem leaveHandler_hw (result : HandlerPort) : (s.leaveHandler result).hw = s.hw := rfl
@[simp] theorem leaveHandler_outctl0 (result : HandlerPort) : (s.leaveHandler result).outctl0 = s.outctl0 := rfl
@[simp] theorem leaveHandler_outctl1 (result : HandlerPort) : (s.leaveHandler result).outctl1 = s.outctl1 := rfl
@[simp] theorem leaveHandler_outcfg (result : HandlerPort) : (s.leaveHandler result).outcfg = s.outcfg := rfl
@[simp] theorem leaveHandler_selftest (result : HandlerPort) : (s.leaveHandler result).selftest = s.selftest := rfl
@[simp] theorem leaveHandler_ch (result : HandlerPort) : (s.leaveHandler result).ch = s.ch := rfl
@[simp] theorem leaveHandler_octl0 (result : HandlerPort) : (s.leaveHandler result).octl0 = s.octl0 := rfl
@[simp] theorem leaveHandler_octl1 (result : HandlerPort) : (s.leaveHandler result).octl1 = s.octl1 := rfl
@[simp] theorem leaveHandler_ocfg (result : HandlerPort) : (s.leaveHandler result).ocfg = s.ocfg := rfl
@[simp] theorem leaveHandler_stest (result : HandlerPort) : (s.leaveHandler result).stest = s.stest := rfl
@[simp] theorem leaveHandler_irqcnt (result : HandlerPort) : (s.leaveHandler result).irqcnt = s.irqcnt := rfl
@[simp] theorem leaveHandler_ptofs (result : HandlerPort) : (s.leaveHandler result).ptofs = s.ptofs := rfl
@[simp] theorem leaveHandler_pten (result : HandlerPort) : (s.leaveHandler result).pten = s.pten := rfl
@[simp] theorem leaveHandler_ptarmed (result : HandlerPort) : (s.leaveHandler result).ptarmed = s.ptarmed := rfl
@[simp] theorem leaveHandler_live (result : HandlerPort) : (s.leaveHandler result).live = s.live := rfl
@[simp] theorem leaveHandler_imask (result : HandlerPort) : (s.leaveHandler result).imask = s.imask := rfl
@[simp] theorem leaveHandler_inh (result : HandlerPort) : (s.leaveHandler result).inh = false := rfl
@[simp] theorem leaveHandler_evs (result : HandlerPort) : (s.leaveHandler result).evs = s.evs := rfl
@[simp] theorem leaveHandler_status (result : HandlerPort) : (s.leaveHandler result).status = s.status := rfl
@[simp] theorem leaveHandler_rdata (result : HandlerPort) : (s.leaveHandler result).rdata = s.rdata := rfl
@[simp] theorem leaveHandler_hport (result : HandlerPort) : (s.leaveHandler result).hport = result := rfl
@[simp] theorem leaveHandler_cfg (result : HandlerPort) : (s.leaveHandler result).cfg = s.cfg := rfl
@[simp] theorem leaveHandler_prog (result : HandlerPort) : (s.leaveHandler result).prog = s.prog := rfl
@[simp] theorem leaveHandler_loc (result : HandlerPort) : (s.leaveHandler result).loc = s.loc := rfl
@[simp] theorem leaveHandler_hprog (result : HandlerPort) : (s.leaveHandler result).hprog = s.hprog := rfl
@[simp] theorem leaveHandler_hloc (result : HandlerPort) : (s.leaveHandler result).hloc = .clear := rfl
@[simp] theorem leaveHandler_inbox (result : HandlerPort) : (s.leaveHandler result).inbox = s.inbox := rfl
@[simp] theorem leaveHandler_script (result : HandlerPort) : (s.leaveHandler result).script = s.script := rfl
@[simp] theorem leaveHandler_draws (result : HandlerPort) : (s.leaveHandler result).draws = s.draws := rfl

/-! ## A new position of HOST -/

@[simp] theorem setHostPosition_par (ms : List Micro) : (s.setPosition .host ms).par = s.par := rfl
@[simp] theorem setHostPosition_hw (ms : List Micro) : (s.setPosition .host ms).hw = s.hw := rfl
@[simp] theorem setHostPosition_outctl0 (ms : List Micro) : (s.setPosition .host ms).outctl0 = s.outctl0 := rfl
@[simp] theorem setHostPosition_outctl1 (ms : List Micro) : (s.setPosition .host ms).outctl1 = s.outctl1 := rfl
@[simp] theorem setHostPosition_outcfg (ms : List Micro) : (s.setPosition .host ms).outcfg = s.outcfg := rfl
@[simp] theorem setHostPosition_selftest (ms : List Micro) : (s.setPosition .host ms).selftest = s.selftest := rfl
@[simp] theorem setHostPosition_ch (ms : List Micro) : (s.setPosition .host ms).ch = s.ch := rfl
@[simp] theorem setHostPosition_octl0 (ms : List Micro) : (s.setPosition .host ms).octl0 = s.octl0 := rfl
@[simp] theorem setHostPosition_octl1 (ms : List Micro) : (s.setPosition .host ms).octl1 = s.octl1 := rfl
@[simp] theorem setHostPosition_ocfg (ms : List Micro) : (s.setPosition .host ms).ocfg = s.ocfg := rfl
@[simp] theorem setHostPosition_stest (ms : List Micro) : (s.setPosition .host ms).stest = s.stest := rfl
@[simp] theorem setHostPosition_irqcnt (ms : List Micro) : (s.setPosition .host ms).irqcnt = s.irqcnt := rfl
@[simp] theorem setHostPosition_ptofs (ms : List Micro) : (s.setPosition .host ms).ptofs = s.ptofs := rfl
@[simp] theorem setHostPosition_pten (ms : List Micro) : (s.setPosition .host ms).pten = s.pten := rfl
@[simp] theorem setHostPosition_ptarmed (ms : List Micro) : (s.setPosition .host ms).ptarmed = s.ptarmed := rfl
@[simp] theorem setHostPosition_live (ms : List Micro) : (s.setPosition .host ms).live = s.live := rfl
@[simp] theorem setHostPosition_imask (ms : List Micro) : (s.setPosition .host ms).imask = s.imask := rfl
@[simp] theorem setHostPosition_inh (ms : List Micro) : (s.setPosition .host ms).inh = s.inh := rfl
@[simp] theorem setHostPosition_evs (ms : List Micro) : (s.setPosition .host ms).evs = s.evs := rfl
@[simp] theorem setHostPosition_status (ms : List Micro) : (s.setPosition .host ms).status = s.status := rfl
@[simp] theorem setHostPosition_rdata (ms : List Micro) : (s.setPosition .host ms).rdata = s.rdata := rfl
@[simp] theorem setHostPosition_hport (ms : List Micro) : (s.setPosition .host ms).hport = s.hport := rfl
@[simp] theorem setHostPosition_cfg (ms : List Micro) : (s.setPosition .host ms).cfg = s.cfg := rfl
@[simp] theorem setHostPosition_prog (ms : List Micro) : (s.setPosition .host ms).prog = ms := rfl
@[simp] theorem setHostPosition_loc (ms : List Micro) : (s.setPosition .host ms).loc = s.loc := rfl
@[simp] theorem setHostPosition_hprog (ms : List Micro) : (s.setPosition .host ms).hprog = s.hprog := rfl
@[simp] theorem setHostPosition_hloc (ms : List Micro) : (s.setPosition .host ms).hloc = s.hloc := rfl
@[simp] theorem setHostPosition_inbox (ms : List Micro) : (s.setPosition .host ms).inbox = s.inbox := rfl
@[simp] theorem setHostPosition_script (ms : List Micro) : (s.setPosition .host ms).script = s.script := rfl
@[simp] theorem setHostPosition_draws (ms : List Micro) : (s.setPosition .host ms).draws = s.draws := rfl

/-! ## A new position of IRQ -/

@[simp] theorem setIrqPosition_par (ms : List Micro) : (s.setPosition .irq ms).par = s.par := rfl
@[simp] theorem setIrqPosition_hw (ms : List Micro) : (s.setPosition .irq ms).hw = s.hw := rfl
@[simp] theorem setIrqPosition_outctl0 (ms : List Micro) : (s.setPosition .irq ms).outctl0 = s.outctl0 := rfl
@[simp] theorem setIrqPosition_outctl1 (ms : List Micro) : (s.setPosition .irq ms).outctl1 = s.outctl1 := rfl
@[simp] theorem setIrqPosition_outcfg (ms : List Micro) : (s.setPosition .irq ms).outcfg = s.outcfg := rfl
@[simp] theorem setIrqPosition_selftest (ms : List Micro) : (s.setPosition .irq ms).selftest = s.selftest := rfl
@[simp] theorem setIrqPosition_ch (ms : List Micro) : (s.setPosition .irq ms).ch = s.ch := rfl
@[simp] theorem setIrqPosition_octl0 (ms : List Micro) : (s.setPosition .irq ms).octl0 = s.octl0 := rfl
@[simp] theorem setIrqPosition_octl1 (ms : List Micro) : (s.setPosition .irq ms).octl1 = s.octl1 := rfl
@[simp] theorem setIrqPosition_ocfg (ms : List Micro) : (s.setPosition .irq ms).ocfg = s.ocfg := rfl
@[simp] theorem setIrqPosition_stest (ms : List Micro) : (s.setPosition .irq ms).stest = s.stest := rfl
@[simp] theorem setIrqPosition_irqcnt (ms : List Micro) : (s.setPosition .irq ms).irqcnt = s.irqcnt := rfl
@[simp] theorem setIrqPosition_ptofs (ms : List Micro) : (s.setPosition .irq ms).ptofs = s.ptofs := rfl
@[simp] theorem setIrqPosition_pten (ms : List Micro) : (s.setPosition .irq ms).pten = s.pten := rfl
@[simp] theorem setIrqPosition_ptarmed (ms : List Micro) : (s.setPosition .irq ms).ptarmed = s.ptarmed := rfl
@[simp] theorem setIrqPosition_live (ms : List Micro) : (s.setPosition .irq ms).live = s.live := rfl
@[simp] theorem setIrqPosition_imask (ms : List Micro) : (s.setPosition .irq ms).imask = s.imask := rfl
@[simp] theorem setIrqPosition_inh (ms : List Micro) : (s.setPosition .irq ms).inh = s.inh := rfl
@[simp] theorem setIrqPosition_evs (ms : List Micro) : (s.setPosition .irq ms).evs = s.evs := rfl
@[simp] theorem setIrqPosition_status (ms : List Micro) : (s.setPosition .irq ms).status = s.status := rfl
@[simp] theorem setIrqPosition_rdata (ms : List Micro) : (s.setPosition .irq ms).rdata = s.rdata := rfl
@[simp] theorem setIrqPosition_hport (ms : List Micro) : (s.setPosition .irq ms).hport = s.hport := rfl
@[simp] theorem setIrqPosition_cfg (ms : List Micro) : (s.setPosition .irq ms).cfg = s.cfg := rfl
@[simp] theorem setIrqPosition_prog (ms : List Micro) : (s.setPosition .irq ms).prog = s.prog := rfl
@[simp] theorem setIrqPosition_loc (ms : List Micro) : (s.setPosition .irq ms).loc = s.loc := rfl
@[simp] theorem setIrqPosition_hprog (ms : List Micro) : (s.setPosition .irq ms).hprog = ms := rfl
@[simp] theorem setIrqPosition_hloc (ms : List Micro) : (s.setPosition .irq ms).hloc = s.hloc := rfl
@[simp] theorem setIrqPosition_inbox (ms : List Micro) : (s.setPosition .irq ms).inbox = s.inbox := rfl
@[simp] theorem setIrqPosition_script (ms : List Micro) : (s.setPosition .irq ms).script = s.script := rfl
@[simp] theorem setIrqPosition_draws (ms : List Micro) : (s.setPosition .irq ms).draws = s.draws := rfl

end Sys2Proof.Machine
end

