-- ==== Sys2Proof/Laws/Flags.lean ====
section
/-!
SUPPORT. Sys2Proof/Laws/Flags.lean: what the packing of the pending flags reads as, for every well-formed layout and
every draw of the reserved bits; and what the handler's passes over the channels change.
-/

namespace Sys2Proof.Machine

/-! ## One pending-flag register -/

theorem PendLayout_fits {l : PendLayout} (h : l.Wf) (c : Chan) : l.sh.get c + 5 ≤ 16 := h.1 c (Chan.mem_all c)

/-- A bit of the flags of a channel, taken from the word of its register. -/
theorem getLsbD_takeFlags (l : PendLayout) (c : Chan) (w : Reg16) (i : Nat) :
    (takeFlags l c w).getLsbD i = (decide (i < 5) && w.getLsbD (l.sh.get c + i)) := by
  simp [takeFlags, BitVec.getLsbD_setWidth, BitVec.getLsbD_ushiftRight]

/-- A bit of the flags of a channel, placed in its register. -/
theorem getLsbD_placeFlags (l : PendLayout) (c : Chan) (v : BitVec 5) (i : Nat) :
    (placeFlags l c v).getLsbD i =
      (decide (i < 16) && (decide (l.sh.get c ≤ i) && (decide (i < l.sh.get c + 5) && v.getLsbD (i - l.sh.get c)))) := by
  rw [placeFlags, getLsbD_fieldPut, Bool.eq_iff_iff]
  simp only [BitVec.truncate_eq_setWidth, BitVec.getLsbD_setWidth, Bool.and_eq_true, decide_eq_true_eq]
  simp only [PendLayout.field]
  constructor
  · rintro ⟨h1, h2, h3, _, h4⟩; exact ⟨h1, h2, h3, h4⟩
  · rintro ⟨h1, h2, h3, h4⟩; exact ⟨h1, h2, h3, by omega, h4⟩

/-- The flags a channel's register word carries for it are those placed there. -/
theorem takeFlags_placeFlags_self {l : PendLayout} (h : l.Wf) (c : Chan) (v : BitVec 5) :
    takeFlags l c (placeFlags l c v) = v := by
  have hf := PendLayout_fits h c
  apply BitVec.eq_of_getLsbD_eq
  intro i hi
  rw [getLsbD_takeFlags, getLsbD_placeFlags]
  simp [hi, show l.sh.get c + i < 16 by omega]

/-- The flags of one channel of a register leave none in the place of the other. -/
theorem takeFlags_placeFlags_other {l : PendLayout} {c d : Chan} (h : (l.field c).Disjoint (l.field d))
    (v : BitVec 5) : takeFlags l c (placeFlags l d v) = 0 := by
  have h' : l.sh.get c + 5 ≤ l.sh.get d ∨ l.sh.get d + 5 ≤ l.sh.get c := h
  apply BitVec.eq_of_getLsbD_eq
  intro i hi
  rw [getLsbD_takeFlags, getLsbD_placeFlags, show (0 : BitVec 5).getLsbD i = false by simp]
  by_cases h1 : l.sh.get d ≤ l.sh.get c + i
  · have : ¬ l.sh.get c + i < l.sh.get d + 5 := by omega
    simp [this]
  · simp [h1]

theorem takeFlags_or (l : PendLayout) (c : Chan) (v w : Reg16) :
    takeFlags l c (v ||| w) = takeFlags l c v ||| takeFlags l c w := by
  apply BitVec.eq_of_getLsbD_eq
  intro i hi
  rw [BitVec.getLsbD_or, getLsbD_takeFlags, getLsbD_takeFlags, getLsbD_takeFlags, BitVec.getLsbD_or,
    Bool.and_or_distrib_left]

theorem takeFlags_and (l : PendLayout) (c : Chan) (v w : Reg16) :
    takeFlags l c (v &&& w) = takeFlags l c v &&& takeFlags l c w := by
  apply BitVec.eq_of_getLsbD_eq
  intro i hi
  rw [BitVec.getLsbD_and, getLsbD_takeFlags, getLsbD_takeFlags, getLsbD_takeFlags, BitVec.getLsbD_and]
  simp only [hi, decide_true, Bool.true_and]

theorem takeFlags_not {l : PendLayout} (h : l.Wf) (c : Chan) (w : Reg16) :
    takeFlags l c (~~~w) = ~~~(takeFlags l c w) := by
  have hf := PendLayout_fits h c
  apply BitVec.eq_of_getLsbD_eq
  intro i hi
  rw [BitVec.getLsbD_not, getLsbD_takeFlags, getLsbD_takeFlags, BitVec.getLsbD_not]
  simp only [hi, show l.sh.get c + i < 16 by omega, decide_true, Bool.true_and]

@[simp] theorem takeFlags_zero (l : PendLayout) (c : Chan) : takeFlags l c 0#16 = 0#5 := by
  apply BitVec.eq_of_getLsbD_eq
  intro i hi
  simp [getLsbD_takeFlags]

/-- The two channels of one pending-flag register: A and B, or C and D (R28). -/
def samePair (c d : Chan) : Prop :=
  (c = .chA ∧ d = .chB) ∨ (c = .chB ∧ d = .chA) ∨ (c = .chC ∧ d = .chD) ∨ (c = .chD ∧ d = .chC)

theorem PendLayout_disjoint {l : PendLayout} (h : l.Wf) {c d : Chan} (hp : samePair c d) :
    (l.field c).Disjoint (l.field d) := by
  obtain ⟨_, h1, h2⟩ := h
  rcases hp with ⟨rfl, rfl⟩ | ⟨rfl, rfl⟩ | ⟨rfl, rfl⟩ | ⟨rfl, rfl⟩
  · exact h1
  · exact Field_disjoint_symm h1
  · exact h2
  · exact Field_disjoint_symm h2

theorem samePair_symm {c d : Chan} (h : samePair c d) : samePair d c := by
  rcases h with ⟨rfl, rfl⟩ | ⟨rfl, rfl⟩ | ⟨rfl, rfl⟩ | ⟨rfl, rfl⟩ <;> simp [samePair]

theorem takeFlags_definedBits_left {l : PendLayout} (h : l.Wf) {c d : Chan} (hp : samePair c d) :
    takeFlags l c (definedBits l c d) = 0x1F := by
  rw [definedBits, takeFlags_or, takeFlags_placeFlags_self h, takeFlags_placeFlags_other (PendLayout_disjoint h hp)]
  simp

theorem takeFlags_definedBits_right {l : PendLayout} (h : l.Wf) {c d : Chan} (hp : samePair c d) :
    takeFlags l d (definedBits l c d) = 0x1F := by
  rw [definedBits, takeFlags_or, takeFlags_placeFlags_self h,
    takeFlags_placeFlags_other (PendLayout_disjoint h (samePair_symm hp))]
  simp

theorem flags_mask_idem (v : BitVec 5) (x : BitVec 5) : v ||| (x &&& ~~~(0x1F : BitVec 5)) = v := by
  revert v x; decide

/-- The flags of the lower channel in a pending-flag register as it is read, whatever the reserved bits (R56). -/
theorem takeFlags_pendWord_left {l : PendLayout} (h : l.Wf) {c d : Chan} (hp : samePair c d) (fc fd : BitVec 5)
    (draw : Reg16) : takeFlags l c (pendWord l c d fc fd draw) = fc := by
  rw [pendWord, takeFlags_or, takeFlags_or, takeFlags_and, takeFlags_not h, takeFlags_placeFlags_self h,
    takeFlags_placeFlags_other (PendLayout_disjoint h hp), takeFlags_definedBits_left h hp, flags_mask_idem]
  simp

/-- The flags of the higher channel in a pending-flag register as it is read, whatever the reserved bits (R56). -/
theorem takeFlags_pendWord_right {l : PendLayout} (h : l.Wf) {c d : Chan} (hp : samePair c d) (fc fd : BitVec 5)
    (draw : Reg16) : takeFlags l d (pendWord l c d fc fd draw) = fd := by
  rw [pendWord, takeFlags_or, takeFlags_or, takeFlags_and, takeFlags_not h, takeFlags_placeFlags_self h,
    takeFlags_placeFlags_other (PendLayout_disjoint h (samePair_symm hp)), takeFlags_definedBits_right h hp,
    flags_mask_idem]
  simp

/-- Cutting a register as it is read to its defined bits removes the draw (R233). -/
theorem pendWord_and_definedBits (l : PendLayout) (c d : Chan) (fc fd : BitVec 5) (draw : Reg16) :
    pendWord l c d fc fd draw &&& definedBits l c d = placeFlags l c fc ||| placeFlags l d fd := by
  apply BitVec.eq_of_getLsbD_eq
  intro i hi
  have t : ∀ v : BitVec 5, ∀ n : Nat, n < 5 → (0x1F : BitVec 5).getLsbD n = true ∧ (v.getLsbD n = v.getLsbD n) := by
    intro v n hn
    refine ⟨?_, rfl⟩
    interval_cases n <;> rfl
  simp only [pendWord, definedBits, BitVec.getLsbD_and, BitVec.getLsbD_or, BitVec.getLsbD_not, getLsbD_placeFlags, hi,
    decide_true, Bool.true_and]
  by_cases c1 : l.sh.get c ≤ i <;> by_cases c2 : i < l.sh.get c + 5 <;>
    by_cases d1 : l.sh.get d ≤ i <;> by_cases d2 : i < l.sh.get d + 5 <;>
    simp [c1, c2, d1, d2] <;>
    simp_all [show ∀ x, x ≤ i → i < x + 5 → (31#5).getLsbD (i - x) = true from fun x h1 h2 =>
      (t 0 (i - x) (by omega)).1]

/-! ## The 32-bit composition -/

theorem compose_and (a b c d : Reg16) : compose a b &&& compose c d = compose (a &&& c) (b &&& d) := by
  rw [← compose_halves (compose a b &&& compose c d)]
  congr 1
  · rw [show lo16 (compose a b &&& compose c d) = lo16 (compose a b) &&& lo16 (compose c d) from by
      simp [lo16, BitVec.extractLsb'_and]]
    simp
  · rw [show hi16 (compose a b &&& compose c d) = hi16 (compose a b) &&& hi16 (compose c d) from by
      simp [hi16, BitVec.extractLsb'_and]]
    simp

theorem getLsbD_compose (a b : Reg16) (i : Nat) :
    (compose a b).getLsbD i = if i < 16 then a.getLsbD i else decide (i < 32) && b.getLsbD (i - 16) := by
  by_cases h : i < 16
  · simp only [compose, BitVec.truncate_eq_setWidth, BitVec.getLsbD_or, BitVec.getLsbD_setWidth,
      BitVec.getLsbD_shiftLeft, h, if_true, decide_true, show i < 32 by omega, Bool.not_true, Bool.true_and,
      Bool.false_and, Bool.and_false, Bool.or_false]
  · simp only [compose, BitVec.truncate_eq_setWidth, BitVec.getLsbD_or, BitVec.getLsbD_setWidth,
      BitVec.getLsbD_shiftLeft, h, if_false, decide_false, Bool.not_false, Bool.and_true]
    rw [BitVec.getLsbD_of_ge a i (by omega)]
    by_cases h2 : i < 32 <;> simp [h2]
    omega

/-- The half of the composition that carries channel `c`. -/
def halfOf (c : Chan) (m : Word) : Reg16 :=
  match c with
  | .chA => lo16 m
  | .chB => lo16 m
  | .chC => hi16 m
  | .chD => hi16 m

/-- `(m >> pos(c)) & 0x1F` is the channel's flags in its half of `m` (R28). -/
theorem flagsOf_eq {l : PendLayout} (h : l.Wf) (c : Chan) (m : Word) :
    flagsOf l c m = takeFlags l c (halfOf c m) := by
  have hf := PendLayout_fits h c
  apply BitVec.eq_of_getLsbD_eq
  intro i hi
  rw [getLsbD_takeFlags]
  cases c <;>
    simp [flagsOf, pos, halfOf, lo16, hi16, BitVec.getLsbD_ushiftRight,
      BitVec.getLsbD_extractLsb', hi, Nat.add_assoc] <;> omega

@[simp] theorem halfOf_compose (c : Chan) (a b : Reg16) :
    halfOf c (compose a b) = match c with | .chA => a | .chB => a | .chC => b | .chD => b := by
  cases c <;> simp [halfOf]

/-- The handler's bitmask `m`, after h2: the flags of the four channels at their places, nothing else, whatever the
reserved bits of the two registers read as (R233). -/
theorem handler_mask_eq (l : PendLayout) (fa fb fc fd : BitVec 5) (d0 d1 : Reg16) :
    compose (pendWord l .chA .chB fa fb d0) (pendWord l .chC .chD fc fd d1) &&& pendMask32 l =
      compose (placeFlags l .chA fa ||| placeFlags l .chB fb) (placeFlags l .chC fc ||| placeFlags l .chD fd) := by
  rw [pendMask32, compose_and, pendWord_and_definedBits, pendWord_and_definedBits]

/-! ## The handler's passes -/

/-- What h3 does to one channel: `pss` and the bitmask, nothing else (R234). -/
theorem foldChan_cases (s : State) (c : Chan) :
    ((s.ch.get c).ien = true ∧
      foldChan s c = s.modRec c fun r => { r with pss := r.pss ||| flagsOf s.par.pend c s.hloc.m }) ∨
    ((s.ch.get c).ien = false ∧
      foldChan s c = { s.modRec c (fun r => { r with pss := 0 }) with
        hloc := { s.hloc with m := s.hloc.m &&& ~~~(chanMask s.par.pend c) } }) := by
  cases h : (s.ch.get c).ien
  · exact Or.inr ⟨rfl, by simp [foldChan, h]⟩
  · exact Or.inl ⟨rfl, by simp [foldChan, h]⟩

/-- What h9 does to one channel: `rsem` and `evs`, nothing else (R238). -/
theorem signalChan_cases (s : State) (c : Chan) :
    signalChan s c = s ∨
    signalChan s c = { s.modRec c (fun r => { r with rsem := true }) with evs := s.evs ++ [.semSignal c] } := by
  unfold signalChan
  split
  · exact Or.inr rfl
  · exact Or.inl rfl

/-- h10 only appends events (R240). -/
theorem notifySlot_cases (c : Chan) (s : State) (k : Kind) :
    ∃ es, notifySlot c s k = { s with evs := s.evs ++ es } := by
  unfold notifySlot
  split
  · split
    · exact ⟨_, rfl⟩
    · exact ⟨[], by simp⟩
  · exact ⟨[], by simp⟩

/-- h10 only appends events (R240). -/
theorem notifyAll_cases (s : State) : ∃ es, notifyAll s = { s with evs := s.evs ++ es } := by
  have slots : ∀ (ks : List Kind) (c : Chan) (t : State), ∃ es, ks.foldl (notifySlot c) t = { t with evs := t.evs ++ es } := by
    intro ks c
    induction ks with
    | nil => intro t; exact ⟨[], by simp⟩
    | cons k ks ih =>
      intro t
      obtain ⟨es, h⟩ := notifySlot_cases c t k
      obtain ⟨es', h'⟩ := ih { t with evs := t.evs ++ es }
      exact ⟨es ++ es', by simp [List.foldl_cons, h, h']⟩
  have chans : ∀ (cs : List Chan) (t : State), ∃ es, cs.foldl notifyChan t = { t with evs := t.evs ++ es } := by
    intro cs
    induction cs with
    | nil => intro t; exact ⟨[], by simp⟩
    | cons c cs ih =>
      intro t
      obtain ⟨es, h⟩ := slots Kind.all c t
      obtain ⟨es', h'⟩ := ih { t with evs := t.evs ++ es }
      exact ⟨es ++ es', by simp [List.foldl_cons, notifyChan, h, h']⟩
  unfold notifyAll
  split
  · exact chans Chan.all s
  · exact ⟨[], by simp⟩

end Sys2Proof.Machine
end

