-- ==== Sys2Proof/Laws/Ops.lean ====
section
/-!
SUPPORT. Sys2Proof/Laws/Ops.lean: one lemma for each shared operation that says what it can do: register accesses at
the offset of a register, a write of a count-control word, micro-step lists, the schedule, the acceptance of a command.
-/

namespace Sys2Proof

/-- In a well-formed REGMAP the offset of a register leads back to it (R53). -/
theorem RegMap.regAt_offset {m : RegMap} (h : m.Wf) (r : Reg) : m.regAt (m.offset r) = some r := by
  have inj : ∀ (rs : List Reg), (rs.map m.offset).Nodup → r ∈ rs →
      rs.find? (fun q => m.offset q == m.offset r) = some r := by
    intro rs
    induction rs with
    | nil => intro _ h; cases h
    | cons q rs ih =>
      intro hn hm
      rw [List.map_cons, List.nodup_cons] at hn
      by_cases e : q = r
      · subst e; simp
      · have hr : r ∈ rs := by
          rcases List.mem_cons.mp hm with h' | h'
          · exact absurd h'.symm e
          · exact h'
        have ne : m.offset q ≠ m.offset r := by
          intro hc; exact hn.1 (hc ▸ List.mem_map_of_mem hr)
        rw [List.find?_cons_of_neg (by simpa using ne)]
        exact ih hn.2 hr
  exact inj Reg.all h.1 (Reg.mem_all r)

end Sys2Proof

namespace Sys2Proof.Machine

variable {s : State}

/-! ## Register accesses -/

theorem decodeAccess_offset {m : RegMap} (h : m.Wf) (r : Reg) : decodeAccess m (m.offset r) 2 = .ok r := by
  have he := h.2 r (Reg.mem_all r)
  simp [decodeAccess, RegMap.regAt_offset h, he]

/-- A 16-bit write at the offset of a register writes that register (R52, R57). -/
theorem memWrite_offset (h : s.par.Wf) (r : Reg) (v : Reg16) :
    memWrite (s.par.regmap.offset r) 2 v s = writeReg r v s := by
  simp [memWrite, decodeAccess_offset h.1]

/-- A 16-bit read at the offset of a register reads that register (R52, R56). -/
theorem memRead_offset (h : s.par.Wf) (r : Reg) : memRead (s.par.regmap.offset r) 2 s = readReg r s := by
  simp [memRead, decodeAccess_offset h.1]

theorem run_write (h : s.par.Wf) (r : Reg) (src : Src) :
    (Act.write r src).run s = .ofWrite (writeReg r (src.eval s) s) := by
  simp only [Act.run, memWrite_offset h]

/-- No immediate code is persisted (R17, R18, R44): the part of `recOk` that a write of `CCTL(c)` rests on. -/
def noImmediate (r : ChanRec) : Prop := r.ldc ≠ 2 ∧ r.clc ≠ 2 ∧ r.stc ≠ 1

theorem noImmediate_of_recOk {r : ChanRec} (h : recOk r = true) : noImmediate r := by
  simp only [recOk, Bool.and_eq_true, Bool.or_eq_true, bne_iff_ne, beq_iff_eq, decide_eq_true_eq] at h
  obtain ⟨⟨⟨⟨⟨_, h1⟩, h2⟩, h3⟩, _⟩, _⟩ := h
  exact ⟨h1, h2, by rcases h3 with h3 | h3 <;> rw [h3] <;> decide⟩

/-- Writing `CCTL(c)` while no immediate code is persisted stores it and performs no action (R101 corner cases). -/
theorem writeCntctl_cctl (h : s.par.Wf) (c : Chan) (hr : noImmediate (s.ch.get c)) :
    writeCntctl c (cctlWord s.par.cctl (s.ch.get c)) s =
      .ok (s.modHw c fun x => { x with cntctl := cctlWord s.par.cctl (s.ch.get c) }) := by
  have hw := h.2.1
  obtain ⟨h1, h2, h3⟩ := hr
  have e1 : loadNow s.par.cctl (cctlWord s.par.cctl (s.ch.get c)) = false := by
    rw [loadNow_cctlWord hw]; simpa using h1
  have e2 : clearNow s.par.cctl (cctlWord s.par.cctl (s.ch.get c)) = false := by
    rw [clearNow_cctlWord hw]; simpa using h2
  have e3 : storeNow s.par.cctl (cctlWord s.par.cctl (s.ch.get c)) = false := by
    rw [storeNow_cctlWord hw]; simpa using h3
  simp only [writeCntctl, e1, e2, e3, withoutTb_cctlWord hw, gateNow_cctlWord hw]
  simp

/-- The first write of the force-now pattern performs its one action (R58, R105). -/
theorem writeCntctl_forced (h : s.par.Wf) (c : Chan) (f : ForceField) (hr : noImmediate (s.ch.get c)) :
    writeCntctl c (cctlWord s.par.cctl (forced f (s.ch.get c))) s =
      .ok (s.modHw c fun x =>
        { x with
          cntctl := cctlWord s.par.cctl (forced f (s.ch.get c))
          cnt := match f with | .load => compose x.preLo x.preHi | .clr => 0 | .sto => x.cnt
          lat := match f with | .load => x.lat | .clr => x.lat | .sto => x.cnt }) := by
  have hw := h.2.1
  obtain ⟨h1, h2, h3⟩ := hr
  have h3' : ((s.ch.get c).stc == 1) = false := by simpa using h3
  have h1' : ((s.ch.get c).ldc == 2) = false := by simpa using h1
  have h2' : ((s.ch.get c).clc == 2) = false := by simpa using h2
  have t : ((2 : BitVec 2) == 2) = true := by decide
  have u : ((1 : BitVec 2) == 1) = true := by decide
  cases f <;>
    simp only [writeCntctl, loadNow_cctlWord hw, clearNow_cctlWord hw, storeNow_cctlWord hw, withoutTb_cctlWord hw,
      gateNow_cctlWord hw, forced, h1', h2', h3', t, u] <;>
    simp

/-- `CCTL(c)` with TB = 1 opens the gate and stores `CCTL(c)` (R59, R109). -/
theorem writeCntctl_tb (h : s.par.Wf) (c : Chan) (hr : noImmediate (s.ch.get c)) :
    writeCntctl c (cctlWord s.par.cctl (s.ch.get c) ||| fieldPut s.par.cctl.fTb 1) s =
      .ok (s.modHw c fun x => { x with cntctl := cctlWord s.par.cctl (s.ch.get c), tb := true }) := by
  have hw := h.2.1
  obtain ⟨h1, h2, h3⟩ := hr
  have h3' : ((s.ch.get c).stc == 1) = false := by simpa using h3
  have h1' : ((s.ch.get c).ldc == 2) = false := by simpa using h1
  have h2' : ((s.ch.get c).clc == 2) = false := by simpa using h2
  simp only [writeCntctl, loadNow_cctlWord_tb hw, clearNow_cctlWord_tb hw, storeNow_cctlWord_tb hw,
    withoutTb_cctlWord_tb hw, gateNow_cctlWord_tb hw, h1', h2', h3']
  simp

/-- A write to CNTCTL either is refused for two immediate codes, or changes CNTCTL, `cnt`, `lat` and `tb` of the
channel and nothing else (R58, R59). -/
theorem writeCntctl_cases {c : Chan} {v : Reg16} {r : Except Refusal State} (h : writeCntctl c v s = r) :
    r = .error .doubleForce ∨ ∃ n l tb, r = .ok (s.modHw c fun x =>
      { x with cntctl := withoutTb s.par.cctl v, tb := tb, cnt := n, lat := l }) := by
  unfold writeCntctl at h
  dsimp only at h
  split at h
  · exact Or.inl h.symm
  · exact Or.inr ⟨_, _, _, h.symm⟩

/-! ## Micro-step lists -/

@[simp] theorem runSteps_nil (a : Agent) (s : State) : runSteps a [] s = .next (s.setPosition a []) := rfl

theorem runSteps_cont {a : Agent} {m : Micro} {rest : List Micro} {t : State} (h : m.run s = .cont t) :
    runSteps a (m :: rest) s = runSteps a rest t := by simp [runSteps, h]

theorem runSteps_ended {a : Agent} {m : Micro} {rest : List Micro} {t : State} (h : m.run s = .ended t) :
    runSteps a (m :: rest) s = .next (t.setPosition a []) := by simp [runSteps, h]

/-- A micro-step whose guard is false is passed over. -/
theorem runSteps_skip {a : Agent} {m : Micro} {rest : List Micro} (h : m.guard.holds s = false) :
    runSteps a (m :: rest) s = runSteps a rest s := by simp [runSteps, Micro.run, h]

/-- A list of guarded micro-steps whose guards are all false changes nothing. -/
theorem runSteps_skip_all {a : Agent} {g : Guard} {ms rest : List Micro} (hg : g.holds s = false)
    (h : ∀ m ∈ ms, m.guard = g) : runSteps a (ms ++ rest) s = runSteps a rest s := by
  induction ms with
  | nil => rfl
  | cons m ms ih =>
    rw [List.cons_append, runSteps_skip (by rw [h m (List.mem_cons_self ..)]; exact hg)]
    exact ih fun m' hm => h m' (List.mem_cons_of_mem _ hm)

@[simp] theorem always_run (a : Act) (s : State) : a.always.run s = a.run s := rfl

theorem under_run (a : Act) (g : Guard) (s : State) :
    (a.under g).run s = if g.holds s then a.run s else .cont s := rfl

/-- What `runSteps` can answer: a next state, or the refusal of one of its micro-steps; never a fault. -/
theorem runSteps_no_fault (a : Agent) (ms : List Micro) (s : State) (f : Fault) : runSteps a ms s ≠ .fault f := by
  cases f

/-! ## Commands -/

/-- A failing check answers its code and changes nothing else (R85, R227). -/
theorem command_fails {code : BitVec 4} {steps : List Micro} (hp : s.prog = []) (hl : s.live = true) :
    command (some code) steps s = .next (s.raise code) := by
  simp [command, accept, hp, hl]

/-- A command that passes its checks in a ready block runs its micro-steps to their end. -/
theorem command_ready (h : s.Ready) (steps : List Micro) :
    command none steps s = runSteps .host steps { s with prog := steps } := by
  cases s
  obtain ⟨_, h1, h2, h3, h4, _, _⟩ := h
  simp only at h1 h2 h3 h4
  subst h1 h2 h3 h4
  rfl

end Sys2Proof.Machine
end

