-- ==== Sys2Proof/Laws/Commands.lean ====
section
/-!
SUPPORT. Sys2Proof/Laws/Commands.lean: what the lists of micro-steps that commands and handler share lead to when no
other agent acts: one lemma for each list. `Leads ms s t` composes, so the effect of a command is the composition of the
effects of its parts.
-/

namespace Sys2Proof.Machine

variable {s t u : State}

/-- Run from `s` with no other agent acting, the micro-steps `ms` leave `t`, whatever follows them. -/
def Leads (ms : List Micro) (s t : State) : Prop :=
  ∀ (a : Agent) (rest : List Micro), runSteps a (ms ++ rest) s = runSteps a rest t

theorem Leads.nil : Leads [] s s := fun _ _ => rfl

theorem Leads.append {ms ns : List Micro} (h : Leads ms s t) (k : Leads ns t u) : Leads (ms ++ ns) s u := by
  intro a rest
  rw [List.append_assoc, h, k]

theorem Leads.cons {m : Micro} {ms : List Micro} (h : m.run s = .cont t) (k : Leads ms t u) : Leads (m :: ms) s u := by
  intro a rest
  rw [List.cons_append, runSteps_cont h, k]

/-- The same state, written in another way. -/
theorem Leads.to {ms : List Micro} (h : Leads ms s t) (e : t = u) : Leads ms s u := e ▸ h

theorem Leads.single {m : Micro} (h : m.run s = .cont t) : Leads [m] s t := Leads.cons h Leads.nil

/-- Micro-steps under an `if` that does not hold lead nowhere. -/
theorem Leads.skip {ms : List Micro} {g : Guard} (hg : g.holds s = false) (h : ∀ m ∈ ms, m.guard = g) :
    Leads ms s s := fun _ _ => runSteps_skip_all hg h

/-- The last micro-step of a command that returns a value. -/
theorem Leads.ret {ms : List Micro} (h : Leads ms s t) (q : Query) (a : Agent) :
    runSteps a (ms ++ [(Act.ret q).always]) s = .next ((t.respond statusOk (q.eval t)).setPosition a []) := by
  rw [h, runSteps_ended rfl]

theorem under_cont {a : Act} {g : Guard} (hg : g.holds s = true) (h : a.run s = .cont t) :
    (a.under g).run s = .cont t := by
  rw [under_run, if_pos hg, h]

/-! ## Writes of one register -/

theorem run_write_ok {r : Reg} {src : Src} (h : s.par.Wf) (k : writeReg r (src.eval s) s = .ok t) :
    (Act.write r src).run s = .cont t := by
  rw [run_write h, k]; rfl

theorem run_write_cctl (h : s.par.Wf) (c : Chan) (hr : noImmediate (s.ch.get c)) :
    (Act.write (.cntctl c) (.cctl c)).run s =
      .cont (s.modHw c fun x => { x with cntctl := cctlWord s.par.cctl (s.ch.get c) }) :=
  run_write_ok h (writeCntctl_cctl h c hr)

theorem run_write_ictl (h : s.par.Wf) (c : Chan) :
    (Act.write (.intctl c) (.ictl c)).run s =
      .cont (s.modHw c fun x => { x with intctl := ictlWord s.par.ictl (s.ch.get c) }) :=
  run_write_ok h rfl

/-! ## Reads -/

theorem run_readLo (h : s.par.Wf) (c : Chan) :
    (Act.readLo c).run s = .cont { s with loc := { s.loc with l := lo16 (s.hw.get c).lat } } := by
  simp only [Act.run, memRead_offset h]; rfl

theorem run_readHi (h : s.par.Wf) (c : Chan) :
    (Act.readHi c).run s = .cont { s with loc := { s.loc with h := hi16 (s.hw.get c).lat } } := by
  simp only [Act.run, memRead_offset h]; rfl

/-- u4 of READ: the two halves of the latch (R111). -/
theorem leads_readTail (h : s.par.Wf) (hm : s.imask = false) (c : Chan) :
    Leads [Act.maskOpen.always, (Act.readLo c).always, (Act.readHi c).always, Act.maskClose.always] s
      { s with loc := { s.loc with l := lo16 (s.hw.get c).lat, h := hi16 (s.hw.get c).lat } } := by
  refine Leads.cons (t := { s with imask := true }) rfl (Leads.cons (run_readLo (by exact h) c)
    (Leads.cons (run_readHi (by exact h) c) (Leads.single ?_)))
  cases s; simp only at hm; subst hm; rfl

/-- A pending-flag register as it is read, on channel `c` of it: the flags of the channel, whatever the draw (R135). -/
theorem run_statQuery_polled (h : s.par.Wf) (c : Chan) (he : (s.ch.get c).ien = false) :
    (Act.statQuery c).run s = .cont { s with draws := s.draws + 1, loc := { s.loc with v := (s.hw.get c).pend } } := by
  have hp := h.2.2.2
  simp only [Act.run, he, memRead_offset h]
  cases c <;>
    simp [pendReg, readReg, readPend, Flow.ofRead, takeFlags_pendWord_left hp (c := .chA) (d := .chB) (by simp [samePair]),
      takeFlags_pendWord_right hp (c := .chA) (d := .chB) (by simp [samePair]),
      takeFlags_pendWord_left hp (c := .chC) (d := .chD) (by simp [samePair]),
      takeFlags_pendWord_right hp (c := .chC) (d := .chD) (by simp [samePair])]

/-- CLR.IRQSTAT of a disabled channel clears its flags and no others (R136, R60). -/
theorem run_statClear_polled (h : s.par.Wf) (c : Chan) (m : BitVec 5) (he : (s.ch.get c).ien = false) :
    (Act.statClear c m).run s = .cont (s.modHw c fun x => { x with pend := x.pend &&& ~~~m }) := by
  have hp := h.2.2.2
  have z : ∀ v : BitVec 5, v &&& 31#5 = v := by decide
  simp only [Act.run, he, memWrite_offset h]
  cases c <;>
    simp [pendReg, writeReg, Flow.ofWrite, clearFlags, takeFlags_placeFlags_self hp,
      takeFlags_placeFlags_other (PendLayout_disjoint hp (c := .chA) (d := .chB) (by simp [samePair])),
      takeFlags_placeFlags_other (PendLayout_disjoint hp (c := .chB) (d := .chA) (by simp [samePair])),
      takeFlags_placeFlags_other (PendLayout_disjoint hp (c := .chC) (d := .chD) (by simp [samePair])),
      takeFlags_placeFlags_other (PendLayout_disjoint hp (c := .chD) (d := .chC) (by simp [samePair])), z,
      State.modHw, Quad.get, Quad.set]

/-! ## Setters of a field -/

/-- A field of the record, then CNTCTL (R100). -/
theorem leads_setCctl {a : Act} {g : Guard} {c : Chan} {f : ChanRec → ChanRec} (h : s.par.Wf)
    (hg : ∀ q, g.holds { s with ch := q } = true) (ha : a.run s = .cont (s.modRec c f))
    (hr : noImmediate (f (s.ch.get c))) :
    Leads [a.under g, (Act.write (.cntctl c) (.cctl c)).under g] s (s.setCctl c f) := by
  refine Leads.cons (under_cont (by simpa using hg s.ch) ha) (Leads.single (under_cont (hg _) ?_))
  rw [run_write_cctl (s := s.modRec c f) h c (by simpa using hr)]
  simp [State.setCctl]

/-- A field of the record, then INTCTL (R131 to R134). -/
theorem leads_setIctl {a : Act} {g : Guard} {c : Chan} {f : ChanRec → ChanRec} (h : s.par.Wf)
    (hg : ∀ q, g.holds { s with ch := q } = true) (ha : a.run s = .cont (s.modRec c f)) :
    Leads [a.under g, (Act.write (.intctl c) (.ictl c)).under g] s (s.setIctl c f) := by
  refine Leads.cons (under_cont (by simpa using hg s.ch) ha) (Leads.single (under_cont (hg _) ?_))
  rw [run_write_ictl (s := s.modRec c f) h c]
  simp [State.setIctl]

/-! ## Pairs -/

theorem leads_preload (h : s.par.Wf) (c : Chan) (x y : Src) (g : Guard) (hg : ∀ q, g.holds { s with hw := q } = true)
    (hy : ∀ q, y.eval { s with hw := q } = y.eval s) :
    Leads (writePair (.preLo c) (.preHi c) x y g) s
      (s.modHw c fun w => { w with preLo := x.eval s, preHi := y.eval s }) := by
  have e := hy (s.hw.set c { s.hw.get c with preLo := x.eval s })
  refine Leads.cons (t := s.modHw c fun w => { w with preLo := x.eval s }) (under_cont (by simpa using hg s.hw) ?_)
    (Leads.single (under_cont (hg _) ?_))
  · rw [run_write h]; rfl
  · rw [run_write (by exact h)]
    simp only [State.modHw] at e ⊢
    simp [writeReg, Flow.ofWrite, State.modHw, e]

theorem leads_compA (h : s.par.Wf) (c : Chan) (x y : Reg16) (g : Guard)
    (hg : ∀ q, g.holds { s with hw := q } = true) :
    Leads (writePair (.cmpaLo c) (.cmpaHi c) (.const x) (.const y) g) s
      (s.modHw c fun w => { w with cmpaLo := x, cmpaHi := y }) := by
  refine Leads.cons (t := s.modHw c fun w => { w with cmpaLo := x }) (under_cont (by simpa using hg s.hw) ?_)
    (Leads.single (under_cont (hg _) ?_))
  · rw [run_write h]; rfl
  · rw [run_write (by exact h)]; simp [writeReg, Flow.ofWrite, State.modHw, Src.eval]

theorem leads_compB (h : s.par.Wf) (c : Chan) (x y : Reg16) (g : Guard)
    (hg : ∀ q, g.holds { s with hw := q } = true) :
    Leads (writePair (.cmpbLo c) (.cmpbHi c) (.const x) (.const y) g) s
      (s.modHw c fun w => { w with cmpbLo := x, cmpbHi := y }) := by
  refine Leads.cons (t := s.modHw c fun w => { w with cmpbLo := x }) (under_cont (by simpa using hg s.hw) ?_)
    (Leads.single (under_cont (hg _) ?_))
  · rw [run_write h]; rfl
  · rw [run_write (by exact h)]; simp [writeReg, Flow.ofWrite, State.modHw, Src.eval]

/-! ## Force now (R105) -/

/-- What the force action of a field does to the hardware of a channel (R38). -/
def forceHw (f : ForceField) (h : HwChan) : HwChan :=
  match f with
  | .load => { h with cnt := compose h.preLo h.preHi }
  | .clr => { h with cnt := 0 }
  | .sto => { h with lat := h.cnt }

/-- ForceNow performs its one action and leaves `CCTL(c)` in CNTCTL[c] (R105). -/
theorem leads_force (h : s.par.Wf) (c : Chan) (f : ForceField) (g : Guard)
    (hg : ∀ q, g.holds { s with hw := q } = true) (hr : noImmediate (s.ch.get c)) :
    Leads (forceSteps c f g) s
      (s.modHw c fun w => { forceHw f w with cntctl := cctlWord s.par.cctl (s.ch.get c) }) := by
  refine Leads.cons (under_cont (by simpa using hg s.hw) (run_write_ok h (writeCntctl_forced h c f hr)))
    (Leads.single (under_cont (hg _) ?_))
  rw [run_write_cctl (by exact h) c (by simpa using hr)]
  cases f <;> simp [State.modHw, forceHw]

/-! ## SetIen (R140) -/

/-- SetIen(c, 0): `ien` and `pss` cleared, INTCTL rewritten. -/
theorem leads_ienOff (h : s.par.Wf) (c : Chan) (g : Guard)
    (hg : ∀ q, g.holds { s with ch := q } = true) :
    Leads (ienOffSteps c g) s (s.setIctl c fun r => { r with ien := false, pss := 0 }) := by
  refine Leads.cons (under_cont (by simpa using hg s.ch) rfl) (Leads.cons (under_cont (hg _) rfl)
    (Leads.single (under_cont (hg _) ?_)))
  rw [run_write_ictl (by exact h) c]
  simp [State.setIctl, State.modRec, State.modHw]

/-- SetIen(c, 1): `ien` set, INTCTL rewritten. -/
theorem leads_ienOn (h : s.par.Wf) (c : Chan) (g : Guard) (hg : ∀ q, g.holds { s with ch := q } = true) :
    Leads (ienOnSteps c g) s (s.setIctl c fun r => { r with ien := true }) :=
  leads_setIctl h hg rfl

/-- SetIen(c, b) in call context. -/
theorem leads_setIen (h : s.par.Wf) (hm : s.imask = false) (c : Chan) (b : Bool) :
    Leads (setIenSteps c b) s
      (s.setIctl c fun r => { r with ien := b, pss := if b then r.pss else 0 }) := by
  cases b
  · refine Leads.cons (t := { s with imask := true }) rfl ((leads_ienOff (by exact h) c .always fun _ => rfl).append ?_)
    refine Leads.single ?_
    cases s; simp only at hm; subst hm; rfl
  · refine fun a rest => (leads_ienOn h c .always (fun _ => rfl) a rest).trans ?_
    rfl

/-! ## The output registers -/

theorem run_write_outctl0 (h : s.par.Wf) : (Act.write .outctl0 .octl0).run s = .cont { s with outctl0 := s.octl0 } :=
  run_write_ok h rfl

theorem run_write_outctl1 (h : s.par.Wf) : (Act.write .outctl1 .octl1).run s = .cont { s with outctl1 := s.octl1 } :=
  run_write_ok h rfl

theorem run_write_outcfg (h : s.par.Wf) : (Act.write .outcfg .ocfg).run s = .cont { s with outcfg := s.ocfg } :=
  run_write_ok h rfl

/-! ## EXIT -/

/-- x1 of EXIT: CTL in its zero state and not live (R207, R47). -/
theorem run_goDown (s : State) : Act.goDown.always.run s = .cont { s.zeroCtl with live := false } := rfl

/-- `withCtl` takes every element of CTL but `live` (R15, R29). -/
theorem zeroCtl_eq_withCtl (s : State) : s.zeroCtl = s.withCtl s.zeroCtl := rfl

/-- The zero state of CTL does not depend on what CTL was (R263). -/
@[simp] theorem zeroCtl_withCtl (s t : State) : (s.withCtl t).zeroCtl = s.zeroCtl := rfl

/-- Readiness is about nothing of CTL but `live`. -/
theorem State.Ready.withCtl (h : s.Ready) (t : State) : (s.withCtl t).Ready :=
  ⟨h.wf, h.live, h.noCommand, h.noHandler, h.quiet, h.unmasked, h.outside⟩

/-- x2 of EXIT for one channel: a zero count-control word performs no force action (R207). -/
theorem leads_exitChan (h : s.par.Wf) (c : Chan) :
    Leads (exitChanSteps c) s (s.modHw c fun x => { x with cntctl := 0, intctl := 0 }) := by
  have h1 : (Act.write (.cntctl c) (.const 0)).always.run s = .cont (s.modHw c fun x => { x with cntctl := 0 }) :=
    run_write_ok h (by simp [writeReg, writeCntctl, Src.eval])
  have h2 : (Act.write (.intctl c) (.const 0)).always.run (s.modHw c fun x => { x with cntctl := 0 }) =
      .cont ((s.modHw c fun x => { x with cntctl := 0 }).modHw c fun x => { x with intctl := 0 }) :=
    run_write_ok (by exact h) rfl
  exact (Leads.cons h1 (Leads.single h2)).to (by simp [State.modHw])

/-- x3 and x4 of EXIT clear the flags of the two channels of a register (R207, R60). -/
theorem run_clear_pend0 (h : s.par.Wf) :
    (Act.write .pend0 .pendMask0).run s =
      .cont ((s.modHw .chA fun x => { x with pend := 0 }).modHw .chB fun x => { x with pend := 0 }) := by
  have hp := h.2.2.2
  refine run_write_ok h ?_
  simp [writeReg, clearFlags, Src.eval,
    takeFlags_definedBits_left hp (c := .chA) (d := .chB) (by simp [samePair]),
    takeFlags_definedBits_right hp (c := .chA) (d := .chB) (by simp [samePair])]

@[inherit_doc run_clear_pend0] theorem run_clear_pend1 (h : s.par.Wf) :
    (Act.write .pend1 .pendMask1).run s =
      .cont ((s.modHw .chC fun x => { x with pend := 0 }).modHw .chD fun x => { x with pend := 0 }) := by
  have hp := h.2.2.2
  refine run_write_ok h ?_
  simp [writeReg, clearFlags, Src.eval,
    takeFlags_definedBits_left hp (c := .chC) (d := .chD) (by simp [samePair]),
    takeFlags_definedBits_right hp (c := .chC) (d := .chD) (by simp [samePair])]

/-! ## A command in a ready block -/

/-- A command that passes its checks performs its micro-steps. -/
theorem command_accepted (h : s.Accepts) (steps : List Micro) :
    command none steps s = drive s.script { s with prog := steps } := by
  simp [command, h.1, h.2, accept]

/-- A command with a failing check answers its code and changes nothing else. -/
theorem command_rejected (h : s.Accepts) (code : BitVec 4) (steps : List Micro) :
    command (some code) steps s = .next (s.raise code) := command_fails h.2 h.1

/-- A command whose steps lead from every position of `s` to its update by `f`, for an update that does not depend on
the position, answers that update with the value of `q`. -/
theorem command_answers {steps : List Micro} {q : Query} {f : State → State} (h : s.Ready)
    (hl : ∀ p, Leads steps { s with prog := p } (f { s with prog := p }))
    (hf : ∀ p, { (f { s with prog := p }).respond 0 (q.eval (f { s with prog := p })) with prog := [] } =
      (f s).respond 0 (q.eval (f s))) :
    command none (steps ++ [(Act.ret q).always]) s = .next ((f s).respond 0 (q.eval (f s))) := by
  rw [command_ready h, (hl _).ret]
  exact congrArg _ (hf _)

/-- A command with no result. -/
theorem setter_answers {steps : List Micro} {f : State → State} (h : s.Ready)
    (hl : ∀ p, Leads steps { s with prog := p } (f { s with prog := p }))
    (hf : ∀ p, { (f { s with prog := p }).respond 0 0 with prog := [] } = (f s).respond 0 0) :
    setter none steps s = .next ((f s).respond 0 0) :=
  command_answers h hl hf

end Sys2Proof.Machine
end

