-- ==== Sys2Proof/Laws/PerInstr.lean ====
section
/-!
SUPPORT. Sys2Proof/Laws/PerInstr.lean: a law of every command as syntax: its command word matches one row of the
opcode table of spec rule R84 and no other.
-/

namespace Sys2Proof.Laws

open Sys2Proof.Machine

/-- How many rows of the opcode table match a command word. -/
def rowsMatching (w : BitVec 16) : Nat := (opcodeRows.filter fun row => w &&& row.1 == row.2).length

/-- The encoding of the command matches exactly one row. -/
def EncodeInTable.Statement (i : Instr) : Prop := rowsMatching (encode i).1 = 1

/-- A format C opcode whose four words match one row each. -/
theorem rowsMatching_wordC {op : BitVec 8} (h : (Chan.all.all fun c => rowsMatching (wordC op c) == 1) = true)
    (c : Chan) : rowsMatching (wordC op c) = 1 := by
  simp only [Chan.all, List.all_cons, List.all_nil, Bool.and_true, Bool.and_eq_true, beq_iff_eq] at h
  cases c <;> simp only [h]

/-- A format S opcode whose 32 words match one row each. -/
theorem rowsMatching_wordS {op : BitVec 8}
    (h : (Chan.all.all fun c => decide (∀ k : BitVec 3, rowsMatching (wordS op c k) = 1)) = true)
    (c : Chan) (k : BitVec 3) : rowsMatching (wordS op c k) = 1 := by
  simp only [Chan.all, List.all_cons, List.all_nil, Bool.and_true, Bool.and_eq_true, decide_eq_true_eq] at h
  cases c <;> simp only [h]

theorem EncodeInTable.setMode (c : Chan) (data : Word) : EncodeInTable.Statement (.setMode c data) :=
  rowsMatching_wordC (op := 0x01) (by decide) c
theorem EncodeInTable.getMode (c : Chan) : EncodeInTable.Statement (.getMode c) :=
  rowsMatching_wordC (op := 0x81) (by decide) c
theorem EncodeInTable.setLoad (c : Chan) (data : Word) : EncodeInTable.Statement (.setLoad c data) :=
  rowsMatching_wordC (op := 0x02) (by decide) c
theorem EncodeInTable.getLoad (c : Chan) : EncodeInTable.Statement (.getLoad c) :=
  rowsMatching_wordC (op := 0x82) (by decide) c
theorem EncodeInTable.setClear (c : Chan) (data : Word) : EncodeInTable.Statement (.setClear c data) :=
  rowsMatching_wordC (op := 0x03) (by decide) c
theorem EncodeInTable.getClear (c : Chan) : EncodeInTable.Statement (.getClear c) :=
  rowsMatching_wordC (op := 0x83) (by decide) c
theorem EncodeInTable.setStore (c : Chan) (data : Word) : EncodeInTable.Statement (.setStore c data) :=
  rowsMatching_wordC (op := 0x04) (by decide) c
theorem EncodeInTable.getStore (c : Chan) : EncodeInTable.Statement (.getStore c) :=
  rowsMatching_wordC (op := 0x84) (by decide) c
theorem EncodeInTable.setTstart (c : Chan) (data : Word) : EncodeInTable.Statement (.setTstart c data) :=
  rowsMatching_wordC (op := 0x05) (by decide) c
theorem EncodeInTable.getTstart (c : Chan) : EncodeInTable.Statement (.getTstart c) :=
  rowsMatching_wordC (op := 0x85) (by decide) c
theorem EncodeInTable.setCompa (c : Chan) (data : Word) : EncodeInTable.Statement (.setCompa c data) :=
  rowsMatching_wordC (op := 0x06) (by decide) c
theorem EncodeInTable.getCompa (c : Chan) : EncodeInTable.Statement (.getCompa c) :=
  rowsMatching_wordC (op := 0x86) (by decide) c
theorem EncodeInTable.setCompb (c : Chan) (data : Word) : EncodeInTable.Statement (.setCompb c data) :=
  rowsMatching_wordC (op := 0x07) (by decide) c
theorem EncodeInTable.getCompb (c : Chan) : EncodeInTable.Statement (.getCompb c) :=
  rowsMatching_wordC (op := 0x87) (by decide) c
theorem EncodeInTable.setReadmode (c : Chan) (data : Word) : EncodeInTable.Statement (.setReadmode c data) :=
  rowsMatching_wordC (op := 0x08) (by decide) c
theorem EncodeInTable.getReadmode (c : Chan) : EncodeInTable.Statement (.getReadmode c) :=
  rowsMatching_wordC (op := 0x88) (by decide) c
theorem EncodeInTable.setReadtout (c : Chan) (data : Word) : EncodeInTable.Statement (.setReadtout c data) :=
  rowsMatching_wordC (op := 0x09) (by decide) c
theorem EncodeInTable.getReadtout (c : Chan) : EncodeInTable.Statement (.getReadtout c) :=
  rowsMatching_wordC (op := 0x89) (by decide) c
theorem EncodeInTable.setWritemode (c : Chan) (data : Word) : EncodeInTable.Statement (.setWritemode c data) :=
  rowsMatching_wordC (op := 0x0A) (by decide) c
theorem EncodeInTable.getWritemode (c : Chan) : EncodeInTable.Statement (.getWritemode c) :=
  rowsMatching_wordC (op := 0x8A) (by decide) c
theorem EncodeInTable.freqstart (c : Chan) : EncodeInTable.Statement (.freqstart c) :=
  rowsMatching_wordC (op := 0x0B) (by decide) c
theorem EncodeInTable.setIrqen (c : Chan) (data : Word) : EncodeInTable.Statement (.setIrqen c data) :=
  rowsMatching_wordC (op := 0x10) (by decide) c
theorem EncodeInTable.getIrqen (c : Chan) : EncodeInTable.Statement (.getIrqen c) :=
  rowsMatching_wordC (op := 0x90) (by decide) c
theorem EncodeInTable.setCompirq (c : Chan) (data : Word) : EncodeInTable.Statement (.setCompirq c data) :=
  rowsMatching_wordC (op := 0x11) (by decide) c
theorem EncodeInTable.getCompirq (c : Chan) : EncodeInTable.Statement (.getCompirq c) :=
  rowsMatching_wordC (op := 0x91) (by decide) c
theorem EncodeInTable.setCbirq (c : Chan) (data : Word) : EncodeInTable.Statement (.setCbirq c data) :=
  rowsMatching_wordC (op := 0x12) (by decide) c
theorem EncodeInTable.getCbirq (c : Chan) : EncodeInTable.Statement (.getCbirq c) :=
  rowsMatching_wordC (op := 0x92) (by decide) c
theorem EncodeInTable.setLbirq (c : Chan) (data : Word) : EncodeInTable.Statement (.setLbirq c data) :=
  rowsMatching_wordC (op := 0x13) (by decide) c
theorem EncodeInTable.getLbirq (c : Chan) : EncodeInTable.Statement (.getLbirq c) :=
  rowsMatching_wordC (op := 0x93) (by decide) c
theorem EncodeInTable.setXirq (c : Chan) (data : Word) : EncodeInTable.Statement (.setXirq c data) :=
  rowsMatching_wordC (op := 0x14) (by decide) c
theorem EncodeInTable.getXirq (c : Chan) : EncodeInTable.Statement (.getXirq c) :=
  rowsMatching_wordC (op := 0x94) (by decide) c
theorem EncodeInTable.clrIrqstat (c : Chan) (data : Word) : EncodeInTable.Statement (.clrIrqstat c data) :=
  rowsMatching_wordC (op := 0x15) (by decide) c
theorem EncodeInTable.getIrqstat (c : Chan) : EncodeInTable.Statement (.getIrqstat c) :=
  rowsMatching_wordC (op := 0x95) (by decide) c
theorem EncodeInTable.siginst (c : Chan) (kind : BitVec 3) (data : Word) : EncodeInTable.Statement (.siginst c kind data) :=
  rowsMatching_wordS (op := 0x18) (by decide) c kind
theorem EncodeInTable.sigrem (c : Chan) (kind : BitVec 3) : EncodeInTable.Statement (.sigrem c kind) :=
  rowsMatching_wordS (op := 0x19) (by decide) c kind
theorem EncodeInTable.setPtofs (data : Word) : EncodeInTable.Statement (.setPtofs data) :=
  (by decide : rowsMatching (wordG 0x20) = 1)
theorem EncodeInTable.getPtofs : EncodeInTable.Statement .getPtofs :=
  (by decide : rowsMatching (wordG 0xA0) = 1)
theorem EncodeInTable.setPten (data : Word) : EncodeInTable.Statement (.setPten data) :=
  (by decide : rowsMatching (wordG 0x21) = 1)
theorem EncodeInTable.getPten : EncodeInTable.Statement .getPten :=
  (by decide : rowsMatching (wordG 0xA1) = 1)
theorem EncodeInTable.setOutmode (data : Word) : EncodeInTable.Statement (.setOutmode data) :=
  (by decide : rowsMatching (wordG 0x22) = 1)
theorem EncodeInTable.getOutmode : EncodeInTable.Statement .getOutmode :=
  (by decide : rowsMatching (wordG 0xA2) = 1)
theorem EncodeInTable.setOutset (data : Word) : EncodeInTable.Statement (.setOutset data) :=
  (by decide : rowsMatching (wordG 0x23) = 1)
theorem EncodeInTable.getOutset : EncodeInTable.Statement .getOutset :=
  (by decide : rowsMatching (wordG 0xA3) = 1)
theorem EncodeInTable.setSelftest (data : Word) : EncodeInTable.Statement (.setSelftest data) :=
  (by decide : rowsMatching (wordG 0x24) = 1)
theorem EncodeInTable.getSelftest : EncodeInTable.Statement .getSelftest :=
  (by decide : rowsMatching (wordG 0xA4) = 1)
theorem EncodeInTable.getIrqcnt : EncodeInTable.Statement .getIrqcnt :=
  (by decide : rowsMatching (wordG 0xA5) = 1)
theorem EncodeInTable.write (c : Chan) (data : Word) : EncodeInTable.Statement (.write c data) :=
  rowsMatching_wordC (op := 0x40) (by decide) c
theorem EncodeInTable.read (c : Chan) : EncodeInTable.Statement (.read c) :=
  rowsMatching_wordC (op := 0xC0) (by decide) c
theorem EncodeInTable.blkwrite (c : Chan) : EncodeInTable.Statement (.blkwrite c) :=
  rowsMatching_wordC (op := 0x41) (by decide) c
theorem EncodeInTable.blkread (c : Chan) : EncodeInTable.Statement (.blkread c) :=
  rowsMatching_wordC (op := 0xC1) (by decide) c
theorem EncodeInTable.init : EncodeInTable.Statement .init :=
  (by decide : rowsMatching (wordG 0x7E) = 1)
theorem EncodeInTable.exit : EncodeInTable.Statement .exit :=
  (by decide : rowsMatching (wordG 0x7F) = 1)

end Sys2Proof.Laws
end

