-- ==== Sys2Proof/Tests/Slice0.lean ====
section
/-!
SUPPORT. Sys2Proof/Tests/Slice0.lean: decoding of words written out from the spec's encoding tables; an operand out of
range for each check of WellFormed; one step of each command, with the results of spec/95_test_vectors.md ("vector n"
is a line of its section 2, S1 to S8 its section 1); and, for each statement that has hypotheses, a state and operands
that meet them.
-/

namespace Sys2Proof.Tests

open Sys2Proof.Machine

/-! ## Decoding -/

/-! Each word is DIR and ITEM of R84 in bits 15:8, the channel in bits 7:6 and, in format S, kind 3 in bits 5:3. -/

theorem decode_setMode : decode 0x01C0 0xC0DE0000 = .ok (.setMode .chD 0xC0DE0000) := by decide
theorem decode_getMode : decode 0x8180 0xC0DE0001 = .ok (.getMode .chC) := by decide
theorem decode_setLoad : decode 0x0240 0xC0DE0002 = .ok (.setLoad .chB 0xC0DE0002) := by decide
theorem decode_getLoad : decode 0x8200 0xC0DE0003 = .ok (.getLoad .chA) := by decide
theorem decode_setClear : decode 0x03C0 0xC0DE0004 = .ok (.setClear .chD 0xC0DE0004) := by decide
theorem decode_getClear : decode 0x8380 0xC0DE0005 = .ok (.getClear .chC) := by decide
theorem decode_setStore : decode 0x0440 0xC0DE0006 = .ok (.setStore .chB 0xC0DE0006) := by decide
theorem decode_getStore : decode 0x8400 0xC0DE0007 = .ok (.getStore .chA) := by decide
theorem decode_setTstart : decode 0x05C0 0xC0DE0008 = .ok (.setTstart .chD 0xC0DE0008) := by decide
theorem decode_getTstart : decode 0x8580 0xC0DE0009 = .ok (.getTstart .chC) := by decide
theorem decode_setCompa : decode 0x0640 0xC0DE000A = .ok (.setCompa .chB 0xC0DE000A) := by decide
theorem decode_getCompa : decode 0x8600 0xC0DE000B = .ok (.getCompa .chA) := by decide
theorem decode_setCompb : decode 0x07C0 0xC0DE000C = .ok (.setCompb .chD 0xC0DE000C) := by decide
theorem decode_getCompb : decode 0x8780 0xC0DE000D = .ok (.getCompb .chC) := by decide
theorem decode_setReadmode : decode 0x0840 0xC0DE000E = .ok (.setReadmode .chB 0xC0DE000E) := by decide
theorem decode_getReadmode : decode 0x8800 0xC0DE000F = .ok (.getReadmode .chA) := by decide
theorem decode_setReadtout : decode 0x09C0 0xC0DE0010 = .ok (.setReadtout .chD 0xC0DE0010) := by decide
theorem decode_getReadtout : decode 0x8980 0xC0DE0011 = .ok (.getReadtout .chC) := by decide
theorem decode_setWritemode : decode 0x0A40 0xC0DE0012 = .ok (.setWritemode .chB 0xC0DE0012) := by decide
theorem decode_getWritemode : decode 0x8A00 0xC0DE0013 = .ok (.getWritemode .chA) := by decide
theorem decode_freqstart : decode 0x0BC0 0xC0DE0014 = .ok (.freqstart .chD) := by decide
theorem decode_setIrqen : decode 0x1080 0xC0DE0015 = .ok (.setIrqen .chC 0xC0DE0015) := by decide
theorem decode_getIrqen : decode 0x9040 0xC0DE0016 = .ok (.getIrqen .chB) := by decide
theorem decode_setCompirq : decode 0x1100 0xC0DE0017 = .ok (.setCompirq .chA 0xC0DE0017) := by decide
theorem decode_getCompirq : decode 0x91C0 0xC0DE0018 = .ok (.getCompirq .chD) := by decide
theorem decode_setCbirq : decode 0x1280 0xC0DE0019 = .ok (.setCbirq .chC 0xC0DE0019) := by decide
theorem decode_getCbirq : decode 0x9240 0xC0DE001A = .ok (.getCbirq .chB) := by decide
theorem decode_setLbirq : decode 0x1300 0xC0DE001B = .ok (.setLbirq .chA 0xC0DE001B) := by decide
theorem decode_getLbirq : decode 0x93C0 0xC0DE001C = .ok (.getLbirq .chD) := by decide
theorem decode_setXirq : decode 0x1480 0xC0DE001D = .ok (.setXirq .chC 0xC0DE001D) := by decide
theorem decode_getXirq : decode 0x9440 0xC0DE001E = .ok (.getXirq .chB) := by decide
theorem decode_clrIrqstat : decode 0x1500 0xC0DE001F = .ok (.clrIrqstat .chA 0xC0DE001F) := by decide
theorem decode_getIrqstat : decode 0x95C0 0xC0DE0020 = .ok (.getIrqstat .chD) := by decide
theorem decode_siginst : decode 0x1898 0xC0DE0021 = .ok (.siginst .chC 3 0xC0DE0021) := by decide
theorem decode_sigrem : decode 0x1958 0xC0DE0022 = .ok (.sigrem .chB 3) := by decide
theorem decode_setPtofs : decode 0x2000 0xC0DE0023 = .ok (.setPtofs 0xC0DE0023) := by decide
theorem decode_getPtofs : decode 0xA000 0xC0DE0024 = .ok .getPtofs := by decide
theorem decode_setPten : decode 0x2100 0xC0DE0025 = .ok (.setPten 0xC0DE0025) := by decide
theorem decode_getPten : decode 0xA100 0xC0DE0026 = .ok .getPten := by decide
theorem decode_setOutmode : decode 0x2200 0xC0DE0027 = .ok (.setOutmode 0xC0DE0027) := by decide
theorem decode_getOutmode : decode 0xA200 0xC0DE0028 = .ok .getOutmode := by decide
theorem decode_setOutset : decode 0x2300 0xC0DE0029 = .ok (.setOutset 0xC0DE0029) := by decide
theorem decode_getOutset : decode 0xA300 0xC0DE002A = .ok .getOutset := by decide
theorem decode_setSelftest : decode 0x2400 0xC0DE002B = .ok (.setSelftest 0xC0DE002B) := by decide
theorem decode_getSelftest : decode 0xA400 0xC0DE002C = .ok .getSelftest := by decide
theorem decode_getIrqcnt : decode 0xA500 0xC0DE002D = .ok .getIrqcnt := by decide
theorem decode_write : decode 0x4040 0xC0DE002E = .ok (.write .chB 0xC0DE002E) := by decide
theorem decode_read : decode 0xC000 0xC0DE002F = .ok (.read .chA) := by decide
theorem decode_blkwrite : decode 0x41C0 0xC0DE0030 = .ok (.blkwrite .chD) := by decide
theorem decode_blkread : decode 0xC180 0xC0DE0031 = .ok (.blkread .chC) := by decide
theorem decode_init : decode 0x7E00 0xC0DE0032 = .ok .init := by decide
theorem decode_exit : decode 0x7F00 0xC0DE0033 = .ok .exit := by decide

/-! The rejected words of vector 2.1. -/

theorem decode_rejects_zero_field : decode 0x0101 0 = .error .zeroField ∧ decode 0x0B01 0 = .error .zeroField := by
  decide
theorem decode_rejects_kind_in_format_c : decode 0x0108 0 = .error .mustBeZero := by decide
theorem decode_rejects_channel_in_format_g :
    decode 0x2040 0 = .error .mustBeZero ∧ decode 0x7E40 0 = .error .mustBeZero := by decide
theorem decode_rejects_missing_direction :
    ([0x8B00, 0x2500, 0x9800, 0x9900, 0xFE00, 0xFF00] : List (BitVec 16)).all
      (fun w => decide (decode w 0 = .error .unknownOpcode)) := by decide
theorem decode_rejects_unassigned_item :
    ([0x0000, 0x0C00, 0x1600, 0x1700, 0x2600, 0x4200, 0x7D00] : List (BitVec 16)).all
      (fun w => decide (decode w 0 = .error .unknownOpcode)) := by decide
theorem decode_table_word : decodeTableWord 16 0x1858 = some (.siginst .chB 3 0) ∧
    decodeTableWord 16 0x8B00 = none := by decide

/-! ## Well-formedness: an operand out of range for each check -/

theorem wf_mode : ([8, 11, 0xFFFFFFFF] : List Word).all (fun d => !(Instr.setMode .chA d).wellFormed) := by decide
theorem wf_load : (Instr.setLoad .chB 4).wellFormed = false := by decide
theorem wf_clear : (Instr.setClear .chC 4).wellFormed = false := by decide
theorem wf_store : (Instr.setStore .chD 3).wellFormed = false := by decide
theorem wf_tstart : (Instr.setTstart .chA 2).wellFormed = false := by decide
theorem wf_readmode : (Instr.setReadmode .chB 3).wellFormed = false := by decide
theorem wf_writemode : (Instr.setWritemode .chC 2).wellFormed = false := by decide
theorem wf_irqen : (Instr.setIrqen .chD 2).wellFormed = false := by decide
theorem wf_compirq : (Instr.setCompirq .chA 6).wellFormed = false := by decide
theorem wf_cbirq : (Instr.setCbirq .chB 4).wellFormed = false := by decide
theorem wf_lbirq : (Instr.setLbirq .chC 2).wellFormed = false := by decide
theorem wf_xirq : (Instr.setXirq .chD 0x80000000).wellFormed = false := by decide
theorem wf_irqstat : (Instr.clrIrqstat .chA 0x20).wellFormed = false := by decide
theorem wf_siginst : (Instr.siginst .chB 5 0).wellFormed = false := by decide
theorem wf_sigrem : (Instr.sigrem .chC 7).wellFormed = false := by decide
theorem wf_pten : (Instr.setPten 2).wellFormed = false := by decide
theorem wf_outset : (Instr.setOutset 16).wellFormed = false := by decide
theorem wf_selftest : (Instr.setSelftest 0x10000).wellFormed = false := by decide

/-! ## One step of each command -/

/-- The default parameters with the two arm words of program P2 and notifications on. -/
def par0 : Params :=
  { Params.default with armOutctl0 := 0x1111, armOutctl1 := 0x2222, handlerSendsSignals := true }

/-- A live block with every field zero and `ptofs = 25`: after an INIT whose CFG is all zero. -/
def live0 : State := { State.reset with par := par0, live := true }

/-- The live block with the record of one channel changed. -/
def withRec (c : Chan) (f : ChanRec → ChanRec) : State := live0.modRec c f

/-- The live block with the hardware of one channel changed. -/
def withHw (c : Chan) (f : HwChan → HwChan) : State := live0.modHw c f

/-- Channel A as vector 2.2 leaves it at line 12. -/
def line12 : State :=
  (withRec .chA fun r => { r with mode := 9, ldc := 3, clc := 1, stc := 2, tst := 1 }).modHw .chA fun h =>
    { h with cntctl := 0x0679, cnt := 0x77, lat := 0x33, preLo := 0x5678, preHi := 0x1234 }

/-- Channel B as vector 2.3 leaves it at line 7, and its word. -/
def irq7 : State :=
  (withRec .chB fun r => { r with cmpirq := 5, cbirq := 3, lben := true, xen := true }).modHw .chB fun h =>
    { h with intctl := 0x00FA }

/-- The step answers a next state with a property. -/
def gives (o : Out) (p : State → Bool) : Bool :=
  match o with
  | .next t => p t
  | _ => false

/-- The response of a command is this STATUS and RDATA. -/
def answers (o : Out) (code : BitVec 4) (v : Word) : Bool := gives o fun t => t.status == code && t.rdata == v

theorem test_setMode : gives (exec (.setMode .chA 10) live0) (fun t =>
    t.hw.a.cntctl == 0x000A && t.ch.a.mode == 10 && t.status == 0) := by decide
theorem test_setMode_eight : gives (exec (.setMode .chD 8) (withRec .chD fun r => { r with mode := 10 })) (fun t =>
    t.status == 1 && t.ch.d.mode == 10) := by decide
theorem test_setLoad : gives (exec (.setLoad .chA 3) (withRec .chA fun r => { r with mode := 9 })) (fun t =>
    t.hw.a.cntctl == 0x0039 && t.ch.a.ldc == 3) := by decide
theorem test_setLoad_immediate : gives (exec (.setLoad .chA 2) line12) (fun t =>
    t.hw.a.cntctl == 0x0679 && t.ch.a.ldc == 3 && t.hw.a.cnt == 0x12345678) := by decide
theorem test_setClear : gives (exec (.setClear .chA 1) (withRec .chA fun r => { r with mode := 9, ldc := 3 })) (fun t =>
    t.hw.a.cntctl == 0x0079 && t.ch.a.clc == 1) := by decide
theorem test_setClear_immediate : gives (exec (.setClear .chA 2) line12) (fun t =>
    t.hw.a.cntctl == 0x0679 && t.ch.a.clc == 1 && t.hw.a.cnt == 0) := by decide
theorem test_setStore : answers (exec (.setStore .chA 3) line12) 1 0 := by decide
theorem test_setStore_immediate : gives (exec (.setStore .chA 1) line12) (fun t =>
    t.hw.a.cntctl == 0x0679 && t.ch.a.stc == 2 && t.hw.a.lat == 0x77 && t.hw.a.cnt == 0x77) := by decide
theorem test_setTstart : gives (exec (.setTstart .chA 0)
    ((withRec .chA fun r => { r with mode := 5, ldc := 3, clc := 1, stc := 2, tst := 1 }).modHw .chA fun h =>
      { h with tb := true })) (fun t => t.hw.a.cntctl == 0x0275 && t.hw.a.tb) := by decide
theorem test_setCompa : gives (exec (.setCompa .chA 0x00012345) live0) (fun t =>
    t.hw.a.cmpaLo == 0x2345 && t.hw.a.cmpaHi == 0x0001 && t.ch.a.cmpA == 0x00012345) := by decide
theorem test_setCompb : gives (exec (.setCompb .chD 0xFFFF0000) live0) (fun t =>
    t.hw.d.cmpbLo == 0 && t.hw.d.cmpbHi == 0xFFFF && t.ch.d.cmpB == 0xFFFF0000) := by decide
theorem test_freqstart : gives (exec (.freqstart .chA)
    (withRec .chA fun r => { r with mode := 5, ldc := 3, clc := 1, stc := 2, tst := 1 })) (fun t =>
      t.hw.a.tb && t.hw.a.cntctl == 0x0675 && t.status == 0) := by decide
theorem test_freqstart_mode : answers (exec (.freqstart .chA) line12) 1 0 := by decide
theorem test_setReadmode : answers (exec (.setReadmode .chA 3) live0) 1 0 := by decide
theorem test_setReadtout : gives (exec (.setReadtout .chA 0xFFFFFFFF) live0) (fun t =>
    t.ch.a.rdtout == 0xFFFFFFFF && t.status == 0) := by decide
theorem test_setWritemode : answers (exec (.setWritemode .chA 2) live0) 1 0 := by decide
theorem test_write_forced : gives (exec (.write .chB 0x00010002)
    (withRec .chB fun r => { r with wrmode := 1 })) (fun t =>
    t.hw.b.preLo == 0x0002 && t.hw.b.preHi == 0x0001 && t.hw.b.cnt == 0x00010002) := by decide
theorem test_write_plain : gives (exec (.write .chC 0xFFFF0000) live0) (fun t =>
    t.hw.c.preLo == 0 && t.hw.c.preHi == 0xFFFF && t.hw.c.cnt == 0) := by decide
theorem test_read_forced : answers (exec (.read .chB)
    ((withRec .chB fun r => { r with rdmode := 2 }).modHw .chB fun h => { h with cnt := 0x00010002 }))
      0 0x00010002 := by
  decide
theorem test_read_timeout :
    answers (exec (.read .chC) (withRec .chC fun r => { r with rdmode := 1 })) 4 0 := by decide
theorem test_setIrqen : gives (exec (.setIrqen .chB 1) irq7) (fun t =>
    t.hw.b.intctl == 0x00FB && t.ch.b.ien) := by decide
theorem test_setIrqen_disable : gives (exec (.setIrqen .chA 0)
    (withRec .chA fun r => { r with ien := true, xen := true, pss := 0x11 })) (fun t =>
      t.hw.a.intctl == 0x0080 && t.ch.a.pss == 0 && !t.ch.a.ien) := by decide
theorem test_setCompirq : gives (exec (.setCompirq .chB 5) live0) (fun t => t.hw.b.intctl == 0x000A) := by decide
theorem test_setCbirq : gives (exec (.setCbirq .chB 3) (withRec .chB fun r => { r with cmpirq := 5 })) (fun t =>
    t.hw.b.intctl == 0x003A) := by decide
theorem test_setLbirq : gives (exec (.setLbirq .chB 0) (irq7.modRec .chB fun r => { r with ien := true })) (fun t =>
    t.hw.b.intctl == 0x00BB && !t.ch.b.lben) := by decide
theorem test_setXirq : gives (exec (.setXirq .chB 1)
    (withRec .chB fun r => { r with cmpirq := 5, cbirq := 3, lben := true })) (fun t => t.hw.b.intctl == 0x00FA) := by
  decide
theorem test_getIrqstat : answers (exec (.getIrqstat .chB)
    (withRec .chB fun r => { r with ien := true, pss := 0x13 })) 0 0x13 := by decide
theorem test_clrIrqstat : gives (exec (.clrIrqstat .chB 1)
    (withRec .chB fun r => { r with ien := true, pss := 0x13 })) (fun t => t.ch.b.pss == 0x12) := by decide
theorem test_clrIrqstat_live : gives (exec (.clrIrqstat .chB 4)
    ((withHw .chB fun h => { h with pend := 0x04 }).modHw .chA fun h => { h with pend := 0x1F })) (fun t =>
      t.hw.b.pend == 0 && t.hw.a.pend == 0x1F) := by decide
theorem test_siginst : gives (exec (.siginst .chB 0 0x77) live0) (fun t =>
    t.ch.b.sig.ready == some 0x77 && t.status == 0) := by decide
theorem test_siginst_twice : answers (exec (.siginst .chB 0 0x88)
    (withRec .chB fun r => { r with sig := { r.sig with ready := some 0x77 } })) 6 0 := by decide
theorem test_sigrem : gives (exec (.sigrem .chB 0)
    (withRec .chB fun r => { r with sig := { r.sig with ready := some 0 } })) (fun t =>
      t.ch.b.sig.ready == none && t.status == 0) := by decide
theorem test_sigrem_empty : answers (exec (.sigrem .chB 1) live0) 7 0 := by decide
theorem test_setPtofs_low : gives (exec (.setPtofs 24) live0) (fun t => t.ptofs == 25 && t.status == 0) := by decide
theorem test_setPtofs_high : gives (exec (.setPtofs 26) live0) (fun t => t.ptofs == 26) := by decide
theorem test_setPten_arms : gives (exec (.setPten 1) live0) (fun t =>
    t.hw.a.cntctl == 0x024A && t.hw.b.cntctl == 0x001A && t.hw.a.intctl == 0x0081 && t.hw.c.intctl == 0x0006 &&
      t.outcfg == 1 && t.outctl1 == 0x2222 && t.ptarmed) := by rfl
theorem test_setPten_withdraws : gives (exec (.setPten 0) { live0 with pten := true, ptarmed := true }) (fun t =>
    !t.pten && t.ptarmed) := by decide
theorem test_setOutmode : gives (exec (.setOutmode 0x00120034) live0) (fun t =>
    t.outctl0 == 0x0034 && t.outctl1 == 0x0012 && t.octl0 == 0x0034) := by decide
theorem test_setOutset : gives (exec (.setOutset 15) live0) (fun t => t.outcfg == 0x000F && t.ocfg == 0x000F) := by
  decide
theorem test_setSelftest : gives (exec (.setSelftest 0) { live0 with stest := 5, selftest := 6 }) (fun t =>
    t.stest == 0 && t.selftest == 0) := by decide
theorem test_setSelftest_nonzero : exec (.setSelftest 1) live0 = .refused .selftestNonzero := by rfl

theorem test_getMode : answers (exec (.getMode .chA) line12) 0 9 := by decide
theorem test_getLoad : answers (exec (.getLoad .chA) line12) 0 3 := by decide
theorem test_getClear : answers (exec (.getClear .chA) line12) 0 1 := by decide
theorem test_getStore : answers (exec (.getStore .chA) line12) 0 2 := by decide
theorem test_getTstart : answers (exec (.getTstart .chA) line12) 0 1 := by decide
theorem test_getCompa : answers (exec (.getCompa .chC)
    (withRec .chC fun r => { r with cmpA := 0x00012345 })) 0 0x00012345 := by decide
theorem test_getCompb : answers (exec (.getCompb .chD)
    (withRec .chD fun r => { r with cmpB := 0xFFFF0000 })) 0 0xFFFF0000 := by decide
theorem test_getReadmode : answers (exec (.getReadmode .chB)
    (withRec .chB fun r => { r with rdmode := 2 })) 0 2 := by decide
theorem test_getReadtout : answers (exec (.getReadtout .chB)
    (withRec .chB fun r => { r with rdtout := 9 })) 0 9 := by decide
theorem test_getWritemode : answers (exec (.getWritemode .chB)
    (withRec .chB fun r => { r with wrmode := 1 })) 0 1 := by decide
theorem test_getIrqen : answers (exec (.getIrqen .chB) irq7) 0 0 := by decide
theorem test_getCompirq : answers (exec (.getCompirq .chB) irq7) 0 5 := by decide
theorem test_getCbirq : answers (exec (.getCbirq .chB) irq7) 0 3 := by decide
theorem test_getLbirq : answers (exec (.getLbirq .chB) irq7) 0 1 := by decide
theorem test_getXirq : answers (exec (.getXirq .chB) irq7) 0 1 := by decide
theorem test_getPtofs : answers (exec .getPtofs live0) 0 25 := by decide
theorem test_getPten : answers (exec .getPten { live0 with ptarmed := true }) 0 0 := by decide
theorem test_getOutmode : answers (exec .getOutmode
    { live0 with octl0 := 0x1111, octl1 := 0x2222 }) 0 0x22221111 := by decide
theorem test_getOutset : answers (exec .getOutset { live0 with ocfg := 5 }) 0 5 := by decide
theorem test_getSelftest : answers (exec .getSelftest { live0 with selftest := 7 }) 0 0 := by decide
theorem test_getIrqcnt : answers (exec .getIrqcnt { live0 with irqcnt := 3 }) 0 3 := by decide
theorem test_blkread : answers (exec (.blkread .chA) live0) 5 0 := by decide
theorem test_blkwrite : answers (exec (.blkwrite .chD) live0) 5 0 := by decide

/-- The CFG record of program P1. -/
def cfgP1 : CfgPort :=
  { State.reset.cfg with
    chans :=
      { a := { CfgChan.zero with mode := 1, stc := 2, cmpA := 0x00012345 }
        b := .zero
        c := { CfgChan.zero with mode := 10, ldc := 1, tst := 1, cmpirq := 3, ien := 1 }
        d := { CfgChan.zero with mode := 5, lben := 1 } }
    outMode := 0x00120034, outSet := 5 }

theorem test_init : gives (exec .init { live0 with live := false, cfg := cfgP1 }) (fun t =>
    t.hw.a.cntctl == 0x0201 && t.hw.c.cntctl == 0x041A && t.hw.c.intctl == 0x0007 && t.hw.d.intctl == 0x0040 &&
      t.outcfg == 5 && t.live && t.status == 0) := by decide +kernel
theorem test_init_allocation : answers (exec .init { State.reset with
    cfg := { cfgP1 with allocOk := false, idOk := false, outSet := 16 } }) 3 0 := by decide
theorem test_exit : gives (exec .exit ((withHw .chD fun h =>
      { h with cntctl := 5, intctl := 0x40, pend := 0x1F }).modHw .chA fun h => { h with pend := 9, cmpaLo := 0x2345 }))
    (fun t => !t.live && t.hw.d.cntctl == 0 && t.hw.d.intctl == 0 && t.hw.d.pend == 0 && t.hw.a.pend == 0 &&
      t.hw.a.cmpaLo == 0x2345) := by rfl

theorem test_exit_ends_pretrigger : gives (exec .exit
    { withRec .chB fun r => { r with sig := r.sig.set .ready (some 5) } with pten := true, ptarmed := true }) (fun t =>
      !t.ptarmed && !t.live && t.hw.b.preLo == 0 && t.status == 0) := by decide +kernel

/-! ## The handler, the core and the step -/

theorem test_slave_preloads : (slavePreload1 10 25, slavePreload2 10 25) = (0xFFFFFFF1, 0xFFFFFFEC) ∧
    (slavePreload1 1000 0xFFFFFFFF, slavePreload2 1000 0xFFFFFFFF) = (0x000003E9, 0x000001F5) ∧
    (slavePreload1 51 25, slavePreload2 51 25) = (0x0000001A, 0) := by decide
theorem test_fold :
    let s := foldAll { withRec .chB fun r => { r with ien := true } with
      hloc := { HLocals.clear with m := 0x08000310 } }
    s.hloc.m = 0x00000300 ∧ s.ch.b.pss = 0x03 ∧ s.ch.a.pss = 0 := by decide
theorem test_fold_accumulates :
    (foldAll { withRec .chA fun r => { r with ien := true, pss := 0x02 } with
      hloc := { HLocals.clear with m := 0x10 } }).ch.a.pss = 0x12 := by decide
theorem test_semaphore :
    let s := signalAll { withRec .chB fun r => { r with rdmode := 1 } with
      hloc := { HLocals.clear with m := 0x00000300 } }
    s.ch.b.rsem = true ∧ s.evs = [.semSignal .chB] := by decide
theorem test_notify :
    (notifyAll { withRec .chD fun r => { r with sig := { r.sig with carryBorrow := some 0x99 } } with
      hloc := { HLocals.clear with m := 0x04000010 } }).evs = [.notify .chD .carryBorrow 0x99] := by decide +kernel
theorem test_teardown : gives (runSteps .irq teardownSteps { withRec .chA fun r =>
      { r with ien := true, xen := true, pss := 0x10 } with
    ptarmed := true, hloc := { HLocals.clear with branch := .teardown } }) (fun t =>
      t.hw.b.preLo == 0xFFFF && t.hw.c.preHi == 0x7FFF && t.hw.a.intctl == 0 && t.ch.a.pss == 0 && !t.ptarmed) := by rfl
theorem test_flag_places : definedBits .default .chA .chB = 0x1F1F ∧ takeFlags .default .chB 0x041F = 0x04 ∧
    flagsOf .default .chD 0x04000000 = 0x04 := by decide
theorem test_core_quiescent :
    (coreStep (.perturb .chC 1 2) live0).hw.c.cnt = 0 ∧
    (coreStep (.perturb .chA 1 2) line12).hw.a.cnt = 1 := by decide
theorem test_not_live : irqStep State.reset = { State.reset with hport := .notMine } := by rfl
theorem test_step_from_fetch : gives (step (State.reset.withFetchWord 16 0xA000)) (fun t =>
    t.status == 0 && t.rdata == 25) := by rfl
theorem test_step_unknown : gives (step (State.reset.withFetchWord 16 0x7E40)) (fun t => t.status == 5) := by rfl

/-! ## States and operands that meet the hypotheses of the statements -/

/-- A live block of these parameters with nothing in progress and nothing scheduled is ready. -/
theorem ready_of {s : State} (h : s.par = par0) (h₁ : s.live = true) (h₂ : s.prog = []) (h₃ : s.hprog = [])
    (h₄ : s.script = []) (h₅ : s.imask = false) (h₆ : s.inh = false) : s.Ready :=
  ⟨by rw [h]; decide, h₁, h₂, h₃, h₄, h₅, h₆⟩

theorem live0_ready : live0.Ready := ready_of rfl rfl rfl rfl rfl rfl rfl

theorem live0_accepts : live0.Accepts := ⟨rfl, rfl⟩

theorem live0_wf : live0.par.Wf := live0_ready.wf

theorem withRec_ready (c : Chan) (f : ChanRec → ChanRec) : (withRec c f).Ready := ready_of rfl rfl rfl rfl rfl rfl rfl

theorem withRec_accepts (c : Chan) (f : ChanRec → ChanRec) : (withRec c f).Accepts := ⟨rfl, rfl⟩

/-- Every field of every record in its domain. -/
theorem live0_recOk (c : Chan) : recOk (live0.ch.get c) = true := by cases c <;> decide

theorem witness_DecodedWordIsEncoding :
    decode 0x01C0 10 = .ok (.setMode .chD 10) ∧ decode 0xC040 7 = .ok (.read .chB) ∧
      decode 0x19E0 7 = .ok (.sigrem .chD 4) := by decide

/-- The live block with one command to issue. -/
def issuing (cw : BitVec 16) (data : Word) : State := { live0 with inbox := [{ cw := cw, data := data }] }

theorem witness_StepRunsDecodedCommand :
    (issuing 0x0100 10).idle = true ∧ (issuing 0x0100 10).inbox = { cw := 0x0100, data := 10 } :: [] ∧
      decode 0x0100 10 = .ok (.setMode .chA 10) ∧ (issuing 0x0100 10).script = [] ∧
      { issuing 0x0100 10 with script := [Event.go, Event.irq] }.script = .go :: [.irq] := by decide

theorem witness_UnknownWordIsUnsupported :
    (issuing 0x0101 0).idle = true ∧ (issuing 0x0101 0).script = [] ∧
      (issuing 0x0101 0).inbox = { cw := 0x0101, data := 0 } :: [] ∧
      ¬ ∃ row ∈ opcodeRows, (0x0101 : BitVec 16) &&& row.1 = row.2 := by decide

theorem witness_OutOfRangeIsInvalidParameter :
    live0.Accepts ∧ (Instr.setMode .chA 8).wellFormed = false ∧ (Instr.siginst .chD 5 0).wellFormed = false ∧
      (Instr.setSelftest 0x10000).wellFormed = false ∧ (live0.ch.get .chA).mode ≠ 5 :=
  ⟨live0_accepts, by decide⟩

/-- The live block with a command in progress. -/
def busy : State := { live0 with prog := [(Act.setMode .chA 3).always, (Act.ret .zero).always], script := [.go] }

theorem witness_CommandsWithoutMeaningRefused :
    busy.prog ≠ [] ∧ State.reset.prog = [] ∧ State.reset.live = false ∧ Instr.exit ≠ .init ∧ live0.prog = [] ∧
      live0.live = true := by decide

theorem witness_SetModeMeaning :
    live0.Accepts ∧ live0.Ready ∧ recOk (live0.ch.get .chD) = true ∧
      (([8, 11, 0xFFFFFFFF] : List Word).all fun d => !(d.toNat ≤ 7 ∨ d.toNat = 9 ∨ d.toNat = 10)) = true ∧
      (([0, 7, 9, 10] : List Word).all fun d => decide (d.toNat ≤ 7 ∨ d.toNat = 9 ∨ d.toNat = 10)) = true :=
  ⟨live0_accepts, live0_ready, by decide⟩

theorem witness_SetLoadMeaning :
    live0.Accepts ∧ live0.Ready ∧ recOk (live0.ch.get .chA) = true ∧ 3 < (4 : Word).toNat ∧ (0 : Word).toNat ≤ 3 ∧
      (0 : Word) ≠ 2 ∧ (3 : Word).toNat ≤ 3 ∧ (3 : Word) ≠ 2 :=
  ⟨live0_accepts, live0_ready, by decide⟩

theorem witness_SetClearMeaning :
    live0.Accepts ∧ live0.Ready ∧ recOk (live0.ch.get .chB) = true ∧ 3 < (4 : Word).toNat ∧ (1 : Word).toNat ≤ 3 ∧
      (1 : Word) ≠ 2 ∧ (3 : Word).toNat ≤ 3 ∧ (3 : Word) ≠ 2 :=
  ⟨live0_accepts, live0_ready, by decide⟩

theorem witness_SetStoreMeaning :
    live0.Accepts ∧ live0.Ready ∧ recOk (live0.ch.get .chC) = true ∧ 2 < (3 : Word).toNat ∧
      ((0 : Word) = 0 ∨ (0 : Word) = 2) ∧ ((2 : Word) = 0 ∨ (2 : Word) = 2) :=
  ⟨live0_accepts, live0_ready, by decide⟩

theorem witness_SetTstartMeaning :
    live0.Accepts ∧ live0.Ready ∧ recOk (live0.ch.get .chD) = true ∧ 1 < (2 : Word).toNat ∧ (0 : Word).toNat ≤ 1 ∧
      (1 : Word).toNat ≤ 1 :=
  ⟨live0_accepts, live0_ready, by decide⟩

theorem witness_SetComparatorMeaning : live0.Accepts ∧ live0.Ready := ⟨live0_accepts, live0_ready⟩

theorem witness_FreqstartMeaning :
    live0.Accepts ∧ (live0.ch.get .chA).mode ≠ 5 ∧
      (withRec .chA fun r => { r with mode := 5 }).Accepts ∧ (withRec .chA fun r => { r with mode := 5 }).Ready ∧
      ((withRec .chA fun r => { r with mode := 5 }).ch.get .chA).mode = 5 ∧
      recOk ((withRec .chA fun r => { r with mode := 5 }).ch.get .chA) = true :=
  ⟨live0_accepts, by decide, withRec_accepts _ _, withRec_ready _ _, by decide⟩

theorem witness_WriteMeaning :
    live0.Accepts ∧ live0.Ready ∧ (live0.ch.get .chB).wrmode = 0 ∧
      (withRec .chB fun r => { r with wrmode := 1 }).Ready ∧
      recOk ((withRec .chB fun r => { r with wrmode := 1 }).ch.get .chB) = true ∧
      ((withRec .chB fun r => { r with wrmode := 1 }).ch.get .chB).wrmode = 1 :=
  ⟨live0_accepts, live0_ready, by decide, withRec_ready _ _, by decide⟩

theorem witness_ReadReturnsLatchedCount :
    live0.Accepts ∧ live0.Ready ∧ (live0.ch.get .chC).rdmode = 0 ∧
      (withRec .chC fun r => { r with rdmode := 2 }).Ready ∧
      recOk ((withRec .chC fun r => { r with rdmode := 2 }).ch.get .chC) = true ∧
      ((withRec .chC fun r => { r with rdmode := 2 }).ch.get .chC).rdmode = 2 :=
  ⟨live0_accepts, live0_ready, by decide, withRec_ready _ _, by decide⟩

/-- A live block in which channel D waits for the ready interrupt. -/
def waiting (sem : Bool) (tout : Word) : State :=
  withRec .chD fun r => { r with rdmode := 1, rsem := sem, rdtout := tout }

theorem witness_WaitingReadMeaning :
    (waiting true 0).Ready ∧ ((waiting true 0).ch.get .chD).rdmode = 1 ∧ ((waiting true 0).ch.get .chD).rsem = true ∧
      (waiting false 0).Ready ∧ ((waiting false 0).ch.get .chD).rsem = false ∧
      ((waiting false 0).ch.get .chD).rdtout = 0 ∧
      (waiting false 1).Ready ∧ ((waiting false 1).ch.get .chD).rsem = false ∧
      ((waiting false 1).ch.get .chD).rdtout ≠ 0 :=
  ⟨withRec_ready _ _, by decide, by decide, withRec_ready _ _, by decide, by decide, withRec_ready _ _, by decide⟩

theorem witness_PolicySettersMeaning :
    live0.Accepts ∧ live0.Ready ∧ 2 < (3 : Word).toNat ∧ 1 < (2 : Word).toNat ∧ (2 : Word).toNat ≤ 2 ∧
      (1 : Word).toNat ≤ 1 :=
  ⟨live0_accepts, live0_ready, by decide⟩

theorem witness_WriteLoadStoreReadRoundTrip :
    live0.Ready ∧ recOk (live0.ch.get .chC) = true ∧ (live0.ch.get .chC).mode = 0 ∧ (live0.ch.get .chC).ldc = 0 ∧
      (live0.ch.get .chC).clc = 0 ∧ (live0.ch.get .chC).stc = 0 ∧ (live0.ch.get .chC).rdmode = 0 :=
  ⟨live0_ready, by decide⟩

theorem witness_SetIrqenMeaning : live0.Accepts ∧ live0.Ready ∧ 1 < (2 : Word).toNat :=
  ⟨live0_accepts, live0_ready, by decide⟩

theorem witness_SetConditionIrqMeaning :
    live0.Accepts ∧ live0.Ready ∧ 5 < (6 : Word).toNat ∧ 3 < (4 : Word).toNat ∧ (5 : Word).toNat ≤ 5 ∧
      (3 : Word).toNat ≤ 3 :=
  ⟨live0_accepts, live0_ready, by decide⟩

theorem witness_SetSourceIrqMeaning :
    live0.Accepts ∧ live0.Ready ∧ 1 < (2 : Word).toNat ∧ (0 : Word).toNat ≤ 1 ∧ (1 : Word).toNat ≤ 1 :=
  ⟨live0_accepts, live0_ready, by decide⟩

theorem witness_GetIrqstatMeaning :
    live0.Accepts ∧ live0.Ready ∧ (live0.ch.get .chB).ien = false ∧
      (withRec .chB fun r => { r with ien := true, pss := 0x13 }).Ready ∧
      ((withRec .chB fun r => { r with ien := true, pss := 0x13 }).ch.get .chB).ien = true :=
  ⟨live0_accepts, live0_ready, by decide, withRec_ready _ _, by decide⟩

theorem witness_ClrIrqstatMeaning :
    live0.Accepts ∧ live0.Ready ∧ 0x1F < (0x20 : Word).toNat ∧ (0x1F : Word).toNat ≤ 0x1F ∧
      (live0.ch.get .chB).ien = false ∧ (withRec .chB fun r => { r with ien := true }).Ready ∧
      ((withRec .chB fun r => { r with ien := true }).ch.get .chB).ien = true :=
  ⟨live0_accepts, live0_ready, by decide, by decide, by decide, withRec_ready _ _, by decide⟩

/-- A live block with a token in the slot of channel A for external edges. -/
def installed : State := withRec .chA fun r => { r with sig := r.sig.set .externalEdge (some 0) }

theorem witness_SlotCommandsMeaning :
    live0.Accepts ∧ live0.Ready ∧ 4 < (5 : BitVec 3).toNat ∧ Kind.externalEdge.index = (4 : BitVec 3).toNat ∧
      (live0.ch.get .chA).sig.get .externalEdge = none ∧ installed.Accepts ∧ installed.Ready ∧
      (installed.ch.get .chA).sig.get .externalEdge ≠ none :=
  ⟨live0_accepts, live0_ready, by decide, by decide, by decide, withRec_accepts _ _, withRec_ready _ _, by decide⟩

theorem witness_SetPtofsClamps : live0.Ready ∧ (24 : Word).toNat < 25 ∧ 25 ≤ (25 : Word).toNat :=
  ⟨live0_ready, by decide⟩

theorem witness_SetPtenWithoutTransition :
    live0.Accepts ∧ 1 < (2 : Word).toNat ∧ live0.Ready ∧ { live0 with pten := true }.Ready ∧
      { live0 with pten := true }.pten = true :=
  ⟨live0_accepts, by decide, live0_ready, ready_of rfl rfl rfl rfl rfl rfl rfl, rfl⟩

theorem witness_SetPtenArms : live0.Ready ∧ live0.pten = false ∧ live0.Accepts := ⟨live0_ready, rfl, live0_accepts⟩

theorem witness_OutputSettersMeaning :
    live0.Accepts ∧ live0.Ready ∧ 15 < (16 : Word).toNat ∧ (15 : Word).toNat ≤ 15 :=
  ⟨live0_accepts, live0_ready, by decide⟩

theorem witness_SetSelftestMeaning :
    live0.Accepts ∧ live0.Ready ∧ 0xFFFF < (0x10000 : Word).toNat ∧ (0xFFFF : Word).toNat ≤ 0xFFFF ∧
      (0xFFFF : Word) ≠ 0 ∧ (1 : Word).toNat ≤ 0xFFFF ∧ (1 : Word) ≠ 0 :=
  ⟨live0_accepts, live0_ready, by decide⟩

theorem witness_CounterGettersMeaning : line12.Ready := ready_of rfl rfl rfl rfl rfl rfl rfl

theorem witness_InterruptAndDeviceGettersMeaning : irq7.Ready := ready_of rfl rfl rfl rfl rfl rfl rfl

theorem witness_BlockCallsUnsupported : live0.Accepts := live0_accepts

/-- A block that is not live, with a CFG record on its port. -/
def beforeInit (p : CfgPort) : State := { live0 with live := false, cfg := p }

theorem witness_InitLeavesConfiguredState :
    let s := beforeInit { cfgP1 with logicOk := false, logicBypass := true }
    s.par.Wf ∧ s.live = false ∧ s.prog = [] ∧ s.hprog = [] ∧ s.script = [] ∧ s.imask = false ∧
      s.cfg.allocOk = true ∧ cfgOk s.cfg = true ∧ s.cfg.idOk = true ∧ (s.cfg.logicOk || s.cfg.logicBypass) = true :=
  ⟨live0_wf, rfl, rfl, rfl, rfl, rfl, by decide⟩

theorem witness_InitFailureWritesNothing :
    State.reset.live = false ∧ State.reset.prog = [] ∧
      (beforeInit { cfgP1 with allocOk := false }).cfg.allocOk = false ∧
      (beforeInit { cfgP1 with outSet := 16 }).cfg.allocOk = true ∧
      cfgOk (beforeInit { cfgP1 with outSet := 16 }).cfg = false ∧
      cfgOk (beforeInit { cfgP1 with idOk := false }).cfg = true ∧
      (beforeInit { cfgP1 with idOk := false }).cfg.idOk = false ∧
      cfgOk (beforeInit { cfgP1 with logicOk := false }).cfg = true ∧
      (beforeInit { cfgP1 with logicOk := false }).cfg.logicOk = false ∧
      (beforeInit { cfgP1 with logicOk := false }).cfg.logicBypass = false := by decide

theorem witness_ExitQuiesces : live0.Accepts ∧ live0.Ready := ⟨live0_accepts, live0_ready⟩

theorem witness_StorageRegisterWrites : live0.par.Wf := live0_wf

theorem witness_CntctlWriteMeaning :
    live0.par.Wf ∧
      (let field := fun (f : Field) (v : Reg16) => fieldGet f v
       let l := live0.par.cctl
       (field l.fLoad 0x00A0 = 2 ∧ field l.fClr 0x00A0 = 2) ∧ (field l.fLoad 0x0120 = 2 ∧ field l.fSto 0x0120 = 1) ∧
        (field l.fClr 0x0180 = 2 ∧ field l.fSto 0x0180 = 1) ∧
        (field l.fLoad 0x0020 = 2 ∧ field l.fClr 0x0020 ≠ 2 ∧ field l.fSto 0x0020 ≠ 1) ∧
        (field l.fLoad 0x0080 ≠ 2 ∧ field l.fClr 0x0080 = 2 ∧ field l.fSto 0x0080 ≠ 1) ∧
        (field l.fLoad 0x0100 ≠ 2 ∧ field l.fClr 0x0100 ≠ 2 ∧ field l.fSto 0x0100 = 1) ∧
        (field l.fLoad 0x0EFF ≠ 2 ∧ field l.fClr 0x0EFF ≠ 2 ∧ field l.fSto 0x0EFF ≠ 1)) :=
  ⟨live0_wf, by decide⟩

theorem witness_PendingWriteOneToClear : live0.par.Wf ∧ 4 < 5 := ⟨live0_wf, by decide⟩

theorem witness_RegisterReadsMeaning : live0.par.Wf := live0_wf

theorem witness_MeaninglessAccessesRefused :
    live0.par.Wf ∧ 4 ≠ 2 ∧ 0x13 % 2 = 1 ∧ (Reg.all.all fun r => live0.par.regmap.offset r != 0x8C) = true ∧
      Reg.selftest ≠ .pend0 ∧ Reg.selftest ≠ .pend1 ∧
      (Chan.all.all fun c => Reg.selftest != .cntLo c && Reg.selftest != .cntHi c) = true :=
  ⟨live0_wf, by decide⟩

theorem witness_CoreEventsMeaning :
    quiescent live0.par.cctl (live0.hw.get .chC).cntctl = true ∧
      quiescent line12.par.cctl (line12.hw.get .chA).cntctl = false := by decide

theorem witness_HandlerEntry :
    { live0 with imask := true }.imask = true ∧ { live0 with inh := true }.inh = true ∧ live0.imask = false ∧
      live0.inh = false ∧ live0.live = true ∧ State.reset.imask = false ∧ State.reset.inh = false ∧
      State.reset.live = false := by decide

/-- A handler invocation at h8, entered between two micro-steps of a command. -/
def inHandler : State := { busy with inh := true, hprog := handlerSteps.drop 28 }

theorem inHandler_context : inHandler.ContextInv :=
  ⟨⟨handlerSteps.take 28, by decide⟩, by decide, by decide⟩

theorem witness_HandlerRunsToCompletion :
    inHandler.ContextInv ∧ inHandler.hprog ≠ [] ∧ ∃ t, eventStep .go inHandler = .next t :=
  ⟨inHandler_context, by decide, _, rfl⟩

/-- A ready block with a flag pending on an enabled channel, or on none. -/
def flagged (f : BitVec 5) (armed request : Bool) : State :=
  { (withRec .chA fun r => { r with ien := true }).modHw .chA fun h => { h with pend := f, lat := 1000 } with
    ptarmed := armed, pten := request }

theorem flagged_ready (f : BitVec 5) (armed request : Bool) : (flagged f armed request).Ready :=
  ready_of rfl rfl rfl rfl rfl rfl rfl

theorem witness_InvocationNotMine :
    (flagged 0 true true).Ready ∧ qualifies (flagged 0 true true) = false ∧
      (withHw .chA fun h => { h with pend := 0x1F }).Ready ∧
      qualifies (withHw .chA fun h => { h with pend := 0x1F }) = false :=
  ⟨flagged_ready _ _ _, by decide, ready_of rfl rfl rfl rfl rfl rfl rfl, by decide⟩

theorem witness_InvocationMine :
    (flagged 0x10 false true).Ready ∧ qualifies (flagged 0x10 false true) = true ∧
      (flagged 0x10 false true).ptarmed = false ∧ (flagged 0x10 false true).par.ptIdleTeardown = false ∧
      ([Event.irq, .go, .core (.setPending .chB 0x1F)] = [.irq, .go, .core (.setPending .chB 0x1F)] ∧
        (Chan.chB = .chA ∨ Chan.chB = .chB)) ∧
      [Event.irq, .go, .go, .core (.setPending .chD 1)] = [.irq, .go, .go, .core (.setPending .chD 1)] :=
  ⟨flagged_ready _ _ _, by decide⟩

theorem witness_InvocationRecomputes :
    (flagged 0x10 true true).Ready ∧ qualifies (flagged 0x10 true true) = true ∧
      ((flagged 0x10 true true).ptarmed = true ∨ (flagged 0x10 true true).par.ptIdleTeardown = true) ∧
      (flagged 0x10 true true).pten = true :=
  ⟨flagged_ready _ _ _, by decide⟩

theorem witness_InvocationTearsDown :
    (flagged 0x01 true false).Ready ∧ qualifies (flagged 0x01 true false) = true ∧
      ((flagged 0x01 true false).ptarmed = true ∨ (flagged 0x01 true false).par.ptIdleTeardown = true) ∧
      (flagged 0x01 true false).pten = false :=
  ⟨flagged_ready _ _ _, by decide⟩

theorem busy_domain : busy.DomainInv := ⟨live0_recOk, by decide, by decide, by decide⟩

theorem witness_StepKeepsDomains : busy.DomainInv ∧ ∃ t, step busy = .next t := ⟨busy_domain, _, rfl⟩

theorem witness_StepKeepsContexts :
    { inHandler with script := [Event.go, Event.pause] }.ContextInv ∧
      ∃ t, step { inHandler with script := [Event.go, Event.pause] } = .next t :=
  ⟨⟨inHandler_context.place, inHandler_context.inside, inHandler_context.separate⟩, _, rfl⟩

theorem issuing_mirrored (c : Chan) : (issuing 0x01C0 10).ChanMirrored c := by
  cases c <;> exact ⟨by decide, by decide, by decide, by decide, by decide⟩

theorem witness_MirrorsAgreeWhenIdle :
    (issuing 0x01C0 10).IdleInv ∧
      ∃ t, runs 1 (issuing 0x01C0 10) t ∧ t.prog = [] ∧ t.hprog = [] ∧ t.live = true :=
  ⟨⟨live0_wf, rfl, rfl, rfl, rfl, fun _ => ⟨issuing_mirrored, live0_recOk, rfl, rfl, rfl, rfl, by decide⟩⟩,
    _, ⟨_, rfl, rfl⟩, rfl, rfl, rfl⟩

/-- An enabled channel with a full shadow, a command scheduled between CORE events. -/
def shadowed : State :=
  { withRec .chB fun r => { r with ien := true, pss := 0x1F } with
    script := [.core (.setPending .chB 0x1F), .go, .go, .core (.gateClose .chB), .go] }

theorem witness_DisableZeroesShadow :
    shadowed.Accepts ∧ shadowed.ContextInv ∧ ∃ t, exec (.setIrqen .chB 0) shadowed = .next t ∧ t.prog = [] :=
  ⟨⟨rfl, rfl⟩, ⟨List.nil_suffix, by decide, by decide⟩, _, rfl, rfl⟩

theorem witness_LiveCommandsNeverRefused :
    live0.par.Wf ∧ live0.Accepts ∧ live0.DomainInv ∧ live0.ContextInv ∧ Instr.setSelftest 0 ≠ .init ∧
      ∀ d, Instr.setSelftest 0 = .setSelftest d → d = 0 :=
  ⟨live0_wf, live0_accepts, ⟨live0_recOk, by decide, by decide, by decide⟩, ⟨List.nil_suffix, by decide, by decide⟩,
    by decide, fun _ h => (Instr.setSelftest.inj h).symm⟩

theorem witness_OnlyInitAndExitChangeLive :
    live0.ContextInv ∧ Instr.setMode .chA 3 ≠ .init ∧ Instr.setMode .chA 3 ≠ .exit ∧
      ∃ t, exec (.setMode .chA 3) live0 = .next t :=
  ⟨⟨List.nil_suffix, by decide, by decide⟩, by decide, by decide, _, rfl⟩

theorem witness_StepKeepsParametersAndEvents : ∃ t, step busy = .next t := ⟨_, rfl⟩

end Sys2Proof.Tests
end

/-!
PROOFS. The scope of the model: the default parameters are well-formed (O43), and no step writes a parameter or takes an
output event back (O60). The second rests on one inversion lemma for each layer of a step: register accesses,
micro-steps, lists of them, the schedule, the acceptance of a command, HOST's turn.
-/

namespace Sys2Proof

/-! ## The default parameters -/

/-- The default register map is injective with even offsets (R52, R53). -/
theorem RegMap.default_wf : RegMap.default.Wf := by decide

/-- The default fields of CNTCTL fit the word and do not overlap (R20). -/
theorem CctlLayout.default_wf : CctlLayout.default.Wf := by decide

/-- The default fields of INTCTL fit the word and do not overlap (R24). -/
theorem IctlLayout.default_wf : IctlLayout.default.Wf := by decide

/-- The default places of the pending flags fit their registers and do not overlap (R28). -/
theorem PendLayout.default_wf : PendLayout.default.Wf := by decide

theorem Params.default_wf : Params.default.Wf :=
  ⟨RegMap.default_wf, CctlLayout.default_wf, IctlLayout.default_wf, PendLayout.default_wf⟩

/-- Settles O43: the register map and the three layouts one by one, and the list of registers counted. -/
theorem defaultParametersWellFormed : Obligations.DefaultParametersWellFormed := by
  unfold Obligations.DefaultParametersWellFormed
  refine ⟨Params.default_wf, ?_⟩
  rw [List.length_map]
  rfl

end Sys2Proof

namespace Sys2Proof.Machine

/-! ## What a register access can change -/

/-- A register write changes the register file and nothing else (R57 to R61). -/
theorem writeReg_ok_frame {r : Reg} {v : Reg16} {s t : State} (h : writeReg r v s = .ok t) :
    t = { s with hw := t.hw, outctl0 := t.outctl0, outctl1 := t.outctl1, outcfg := t.outcfg,
                 selftest := t.selftest } := by
  cases r with
  | cntctl c =>
    obtain h' | ⟨n, l, tb, h'⟩ := writeCntctl_cases h
    · cases h'
    · obtain rfl := Except.ok.inj h'; rfl
  | cntLo c | cntHi c => cases h
  | _ => obtain rfl := Except.ok.inj h; rfl

/-- A register read changes the number of draws and nothing else (R56). -/
theorem readReg_ok_frame {r : Reg} {v : Reg16} {s t : State} (h : readReg r s = .ok (v, t)) :
    t = { s with draws := t.draws } := by
  cases r with
  | cntLo c | cntHi c | pend0 | pend1 => obtain ⟨-, rfl⟩ := Prod.mk.inj (Except.ok.inj h); rfl
  | _ => cases h

/-- A write the register file takes is the write of the register at that address (R55). -/
theorem memWrite_ok {addr size : Nat} {v : Reg16} {s t : State} (h : memWrite addr size v s = .ok t) :
    ∃ r, decodeAccess s.par.regmap addr size = .ok r ∧ writeReg r v s = .ok t := by
  unfold memWrite at h
  split at h
  · next r hr => exact ⟨r, hr, h⟩
  · cases h

/-- A read the register file answers is the read of the register at that address (R55). -/
theorem memRead_ok {addr size : Nat} {v : Reg16} {s t : State} (h : memRead addr size s = .ok (v, t)) :
    ∃ r, decodeAccess s.par.regmap addr size = .ok r ∧ readReg r s = .ok (v, t) := by
  unfold memRead at h
  split at h
  · next r hr => exact ⟨r, hr, h⟩
  · cases h

/-! ## What a run can answer -/

/-- `P` holds of the state a micro-step leaves, if it leaves one. -/
def Flow.All (P : State → Prop) : Flow → Prop
  | .cont t => P t
  | .ended t => P t
  | .blocked => True
  | .refused _ => True

theorem Flow.all_ofWrite {P : State → Prop} {x : Except Refusal State} (h : ∀ t, x = .ok t → P t) :
    (Flow.ofWrite x).All P := by
  cases x with
  | ok t => exact h t rfl
  | error r => trivial

theorem Flow.all_ofRead {P : State → Prop} {store : Reg16 → State → State} {x : Except Refusal (Reg16 × State)}
    (h : ∀ v t, x = .ok (v, t) → P (store v t)) : (Flow.ofRead store x).All P := by
  cases x with
  | ok p => exact h p.1 p.2 rfl
  | error r => trivial

/-- One micro-step taken by an agent: it goes on, ends its list, or waits where it is (R65). -/
theorem takeMicro_cases {a : Agent} {m : Micro} {rest : List Micro} {s t : State}
    (h : takeMicro a m rest s = .next t) :
    (∃ u, m.run s = .cont u ∧ t = u.setPosition a rest) ∨
    (∃ u, m.run s = .ended u ∧ t = u.setPosition a []) ∨
    (m.run s = .blocked ∧ t = s.setPosition a (m :: rest)) := by
  unfold takeMicro at h
  split at h
  · next u hu => exact .inl ⟨u, hu, (Host.Outcome.next.inj h).symm⟩
  · next u hu => exact .inr (.inl ⟨u, hu, (Host.Outcome.next.inj h).symm⟩)
  · next hu => exact .inr (.inr ⟨hu, (Host.Outcome.next.inj h).symm⟩)
  · cases h

/-- A list of micro-steps with no other agent acting: its first one goes on to the rest, ends it, or blocks. -/
theorem runSteps_cons_cases {a : Agent} {m : Micro} {rest : List Micro} {s t : State}
    (h : runSteps a (m :: rest) s = .next t) :
    (∃ u, m.run s = .cont u ∧ runSteps a rest u = .next t) ∨
    (∃ u, m.run s = .ended u ∧ t = u.setPosition a []) ∨
    (m.run s = .blocked ∧ t = s.setPosition a (m :: rest)) := by
  unfold runSteps at h
  split at h
  · next u hu => exact .inl ⟨u, hu, h⟩
  · next u hu => exact .inr (.inl ⟨u, hu, (Host.Outcome.next.inj h).symm⟩)
  · next hu => exact .inr (.inr ⟨hu, (Host.Outcome.next.inj h).symm⟩)
  · cases h

/-- The quiet rest of a run: the handler's list first, then the command's (R65, R247). -/
theorem runQuiet_next {s t : State} (h : runQuiet s = .next t) :
    ∃ u, runSteps .irq s.hprog s = .next u ∧ runSteps .host u.prog u = .next t := by
  unfold runQuiet at h
  split at h
  · next u hu => exact ⟨u, hu, h⟩
  · cases h
  · cases h

/-- The agent in control takes a micro-step: the handler while one runs, else the command (R65). -/
theorem goStep_cases {s t : State} (h : goStep s = .next t) :
    (∃ m rest, s.hprog = m :: rest ∧ takeMicro .irq m rest s = .next t) ∨
    (∃ m rest, s.hprog = [] ∧ s.prog = m :: rest ∧ takeMicro .host m rest s = .next t) ∨
    (s.hprog = [] ∧ s.prog = [] ∧ t = s) := by
  unfold goStep at h
  split at h
  · next m rest hq => exact .inl ⟨m, rest, hq, h⟩
  · next hq =>
    split at h
    · next m rest hp => exact .inr (.inl ⟨m, rest, hq, hp, h⟩)
    · next hp => exact .inr (.inr ⟨hq, hp, (Host.Outcome.next.inj h).symm⟩)

/-- The IRQ agent's request: not enabled, an invocation entered, or NOT_MINE at once (R232). -/
theorem irqStep_cases (s : State) :
    ((s.imask || s.inh) = true ∧ irqStep s = s) ∨
    ((s.imask || s.inh) = false ∧ s.live = true ∧ irqStep s = s.enterHandler handlerSteps) ∨
    ((s.imask || s.inh) = false ∧ s.live = false ∧ irqStep s = { s with hport := .notMine }) := by
  unfold irqStep
  cases s.imask || s.inh <;> cases s.live <;> simp

/-- The timer ends a waiting READ with Timeout, or nothing happens (R111, R224). -/
theorem timeoutStep_cases (s : State) :
    timeoutStep s = s ∨
    ∃ g c rest, s.hprog = [] ∧ s.prog = ⟨g, .await c⟩ :: rest ∧ g.holds s = true ∧ (s.ch.get c).rsem = false ∧
      timeoutStep s = { s.raise timedOut with prog := [] } := by
  unfold timeoutStep
  split
  · next g c rest hq hp =>
    split
    · next hw =>
      obtain ⟨hg, hr⟩ : g.holds s = true ∧ (s.ch.get c).rsem = false := by simpa using hw
      exact .inr ⟨g, c, rest, hq, hp, hg, hr, rfl⟩
    · exact .inl rfl
  · exact .inl rfl

/-- One entry of the schedule while something is in progress (logs 4, 8, 9). -/
theorem drive_cons_cases {e : Event} {es : List Event} {s t : State} (h : drive (e :: es) s = .next t) :
    (s.idle = true ∧ t = { s with script := e :: es }) ∨
    (s.idle = false ∧ e = .pause ∧ t = { s with script := es }) ∨
    (s.idle = false ∧ e ≠ .pause ∧ ∃ u, eventStep e s = .next u ∧ drive es u = .next t) := by
  unfold drive at h
  split at h
  · next hi => exact .inl ⟨hi, (Host.Outcome.next.inj h).symm⟩
  · next hi =>
    have hi : s.idle = false := by simpa using hi
    split at h
    · next he => exact .inr (.inl ⟨hi, he, (Host.Outcome.next.inj h).symm⟩)
    · next he =>
      split at h
      · next u hu => exact .inr (.inr ⟨hi, he, u, hu, h⟩)
      · cases h
      · cases h

/-! ## What a command can answer -/

/-- A failing check is the response; else the micro-steps run under the schedule (R85). -/
theorem accept_cases {check : Option (BitVec 4)} {steps : List Micro} {s t : State}
    (h : accept check steps s = .next t) :
    (∃ code, check = some code ∧ t = s.raise code) ∨
    (check = none ∧ drive s.script { s with prog := steps } = .next t) := by
  cases check with
  | some code => exact .inl ⟨code, rfl, (Host.Outcome.next.inj h).symm⟩
  | none => exact .inr ⟨rfl, h⟩

/-- A command other than INIT is answered only when no other is in progress and the block is live (R64, R85, R92). -/
theorem command_next {check : Option (BitVec 4)} {steps : List Micro} {s t : State}
    (h : command check steps s = .next t) : s.prog = [] ∧ s.live = true ∧ accept check steps s = .next t := by
  unfold command at h
  split at h
  · cases h
  · next hp =>
    split at h
    · cases h
    · next hl => exact ⟨not_not.mp hp, by simpa using hl, h⟩

/-- INIT is answered only when no other command is in progress and the block is not live (R64, R92, R206). -/
theorem execInit_next {s t : State} (h : execInit s = .next t) :
    s.prog = [] ∧ s.live = false ∧
      accept (initCheck s.cfg) (initSteps s.cfg ++ [(Act.ret .zero).always]) s = .next t := by
  unfold execInit at h
  split at h
  · cases h
  · next hp =>
    split at h
    · cases h
    · next hl => exact ⟨not_not.mp hp, by simpa using hl, h⟩

/-- An answered command is one that was accepted, whatever its checks and its micro-steps. -/
theorem exec_next {i : Instr} {s t : State} (h : exec i s = .next t) :
    s.prog = [] ∧ ∃ check steps, accept check steps s = .next t := by
  have of_command : ∀ {check steps}, command check steps s = .next t →
      s.prog = [] ∧ ∃ check steps, accept check steps s = .next t := fun h =>
    have ⟨hp, _, ha⟩ := command_next h
    ⟨hp, _, _, ha⟩
  cases i with
  | init =>
    obtain ⟨hp, -, ha⟩ := execInit_next h
    exact ⟨hp, _, _, ha⟩
  | siginst c k d | sigrem c k =>
    simp only [exec, execSiginst, execSigrem] at h
    split at h <;> exact of_command h
  | setSelftest d =>
    simp only [exec, execSetSelftest] at h
    split at h
    · cases h
    · exact of_command h
  | _ => exact of_command h

/-- HOST's turn: nothing to issue, a command executed, or a command word that is none (R85, R86). -/
theorem hostTurn_cases {s t : State} (h : hostTurn s = .next t) :
    (s.inbox = [] ∧ t = s) ∨
    (∃ q rest i, s.inbox = q :: rest ∧ decode q.cw q.data = .ok i ∧ exec i { s with inbox := rest } = .next t) ∨
    (∃ q rest e, s.inbox = q :: rest ∧ decode q.cw q.data = .error e ∧
      t = { s with inbox := rest }.raise unsupportedOperation) := by
  unfold hostTurn at h
  split at h
  · next hi => exact .inl ⟨hi, (Host.Outcome.next.inj h).symm⟩
  · next q rest hi =>
    split at h
    · next i hd => exact .inr (.inl ⟨q, rest, i, hi, hd, h⟩)
    · next e hd => exact .inr (.inr ⟨q, rest, e, hi, hd, (Host.Outcome.next.inj h).symm⟩)

/-- A step of an idle block is HOST's turn, a pause, or another entry of the schedule; any other step goes on with what
is in progress. -/
theorem step_cases {s t : State} (h : step s = .next t) :
    (s.idle = true ∧ s.script = [] ∧ hostTurn s = .next t) ∨
    (s.idle = true ∧ ∃ es, s.script = .go :: es ∧ hostTurn { s with script := es } = .next t) ∨
    (s.idle = true ∧ ∃ es, s.script = .pause :: es ∧ t = { s with script := es }) ∨
    (s.idle = true ∧ ∃ e es u, s.script = e :: es ∧ e ≠ .go ∧ e ≠ .pause ∧ eventStep e s = .next u ∧
      drive es u = .next t) ∨
    (s.idle = false ∧ drive s.script s = .next t) := by
  unfold step at h
  split at h
  · next hi =>
    split at h
    · next hs => exact .inl ⟨hi, hs, h⟩
    · next es hs => exact .inr (.inl ⟨hi, es, hs, h⟩)
    · next es hs => exact .inr (.inr (.inl ⟨hi, es, hs, (Host.Outcome.next.inj h).symm⟩))
    · next e es hgo hpause hs =>
      split at h
      · next u hu =>
        exact .inr (.inr (.inr (.inl ⟨hi, e, es, u, hs, hgo, hpause, hu, h⟩)))
      · cases h
      · cases h
  · next hi => exact .inr (.inr (.inr (.inr ⟨by simpa using hi, h⟩)))

/-! ## Parameters kept, events only appended -/

/-- `t` has the parameters of `s`, and its output events are those of `s` followed by zero or more (R4, R36). -/
structure Extends (s t : State) : Prop where
  par : t.par = s.par
  evs : ∃ es, t.evs = s.evs ++ es

theorem Extends.of_eq {s t : State} (hp : t.par = s.par) (he : t.evs = s.evs) : Extends s t :=
  ⟨hp, [], by rw [he, List.append_nil]⟩

theorem Extends.refl (s : State) : Extends s s := .of_eq rfl rfl

theorem Extends.trans {s t u : State} (h : Extends s t) (k : Extends t u) : Extends s u := by
  obtain ⟨hp, es, he⟩ := h
  obtain ⟨kp, es', ke⟩ := k
  exact ⟨kp.trans hp, es ++ es', by rw [ke, he, List.append_assoc]⟩

/-- What extends a state extends every state with the same parameters and events. -/
theorem Extends.of_same {s s' t : State} (h : Extends s' t) (hp : s'.par = s.par) (he : s'.evs = s.evs) :
    Extends s t := (Extends.of_eq hp he).trans h

theorem setPosition_extends (a : Agent) (ms : List Micro) (s : State) : Extends s (s.setPosition a ms) := by
  cases a <;> exact .of_eq rfl rfl

theorem memWrite_extends {addr size : Nat} {v : Reg16} {s t : State} (h : memWrite addr size v s = .ok t) :
    Extends s t := by
  obtain ⟨r, -, hr⟩ := memWrite_ok h
  rw [writeReg_ok_frame hr]
  exact .of_eq rfl rfl

theorem memRead_extends {addr size : Nat} {v : Reg16} {s t : State} (h : memRead addr size s = .ok (v, t)) :
    Extends s t := by
  obtain ⟨r, -, hr⟩ := memRead_ok h
  rw [readReg_ok_frame hr]
  exact .of_eq rfl rfl

theorem foldAll_extends (s : State) : Extends s (foldAll s) := by
  refine List.foldlRecOn Chan.all foldChan (Extends.refl s) fun t h c _ => h.trans ?_
  obtain ⟨-, e⟩ | ⟨-, e⟩ := foldChan_cases t c <;> rw [e] <;> exact .of_eq rfl rfl

theorem signalAll_extends (s : State) : Extends s (signalAll s) := by
  refine List.foldlRecOn Chan.all signalChan (Extends.refl s) fun t h c _ => h.trans ?_
  obtain e | e := signalChan_cases t c <;> rw [e]
  · exact Extends.refl t
  · exact ⟨rfl, _, rfl⟩

theorem notifyAll_extends (s : State) : Extends s (notifyAll s) := by
  obtain ⟨es, e⟩ := notifyAll_cases s
  rw [e]
  exact ⟨rfl, _, rfl⟩

/-- A register read whose value is put into a local. -/
theorem ofRead_extends {addr size : Nat} {s : State} {store : Reg16 → State → State}
    (hs : ∀ v t, Extends t (store v t)) : (Flow.ofRead store (memRead addr size s)).All (Extends s) :=
  Flow.all_ofRead fun v t h => (memRead_extends h).trans (hs v t)

/-- Only h9 and h10 of the handler touch `evs`, and they append; no action writes `par`. -/
theorem Act.run_extends (a : Act) (s : State) : (a.run s).All (Extends s) := by
  cases a with
  | write r src => exact Flow.all_ofWrite fun _ h => memWrite_extends h
  | readLo c | readHi c | hPend0 | hPend1 | hCntLo | hCntHi => exact ofRead_extends fun _ _ => .of_eq rfl rfl
  | await c =>
    simp only [Act.run]
    split
    · exact .of_eq rfl rfl
    · split
      · exact .of_eq rfl rfl
      · trivial
  | statQuery c =>
    simp only [Act.run]
    split
    · exact .of_eq rfl rfl
    · exact ofRead_extends fun _ _ => .of_eq rfl rfl
  | statClear c mask =>
    simp only [Act.run]
    split
    · exact .of_eq rfl rfl
    · exact Flow.all_ofWrite fun _ h => memWrite_extends h
  | hOwn =>
    simp only [Act.run]
    split <;> exact .of_eq rfl rfl
  | hFold => exact foldAll_extends s
  | hSem => exact signalAll_extends s
  | hNotify => exact notifyAll_extends s
  | _ => exact .of_eq rfl rfl

theorem Micro.run_extends (m : Micro) (s : State) : (m.run s).All (Extends s) := by
  unfold Micro.run
  split
  · exact m.act.run_extends s
  · exact Extends.refl s

theorem Micro.extends_of_cont {m : Micro} {s t : State} (h : m.run s = .cont t) : Extends s t := by
  have k := m.run_extends s
  rw [h] at k
  exact k

theorem Micro.extends_of_ended {m : Micro} {s t : State} (h : m.run s = .ended t) : Extends s t := by
  have k := m.run_extends s
  rw [h] at k
  exact k

theorem takeMicro_extends {a : Agent} {m : Micro} {rest : List Micro} {s t : State}
    (h : takeMicro a m rest s = .next t) : Extends s t := by
  obtain ⟨u, hu, rfl⟩ | ⟨u, hu, rfl⟩ | ⟨-, rfl⟩ := takeMicro_cases h
  · exact (Micro.extends_of_cont hu).trans (setPosition_extends ..)
  · exact (Micro.extends_of_ended hu).trans (setPosition_extends ..)
  · exact setPosition_extends ..

theorem runSteps_extends {a : Agent} {ms : List Micro} {s t : State} (h : runSteps a ms s = .next t) :
    Extends s t := by
  induction ms generalizing s with
  | nil =>
    obtain rfl := Host.Outcome.next.inj h
    exact setPosition_extends ..
  | cons m rest ih =>
    obtain ⟨u, hu, hr⟩ | ⟨u, hu, rfl⟩ | ⟨-, rfl⟩ := runSteps_cons_cases h
    · exact (Micro.extends_of_cont hu).trans (ih hr)
    · exact (Micro.extends_of_ended hu).trans (setPosition_extends ..)
    · exact setPosition_extends ..

theorem runQuiet_extends {s t : State} (h : runQuiet s = .next t) : Extends s t := by
  obtain ⟨u, hq, hp⟩ := runQuiet_next h
  exact (runSteps_extends hq).trans (runSteps_extends hp)

theorem goStep_extends {s t : State} (h : goStep s = .next t) : Extends s t := by
  obtain ⟨m, rest, -, hm⟩ | ⟨m, rest, -, -, hm⟩ | ⟨-, -, rfl⟩ := goStep_cases h
  · exact takeMicro_extends hm
  · exact takeMicro_extends hm
  · exact Extends.refl _

theorem coreStep_extends (e : CoreEvent) (s : State) : Extends s (coreStep e s) := by
  cases e with
  | setPending c b | gateClose c => exact .of_eq rfl rfl
  | perturb c n l =>
    simp only [coreStep]
    split <;> exact .of_eq rfl rfl

theorem irqStep_extends (s : State) : Extends s (irqStep s) := by
  obtain ⟨-, e⟩ | ⟨-, -, e⟩ | ⟨-, -, e⟩ := irqStep_cases s <;> rw [e] <;> exact .of_eq rfl rfl

theorem timeoutStep_extends (s : State) : Extends s (timeoutStep s) := by
  obtain e | ⟨g, c, rest, -, -, -, -, e⟩ := timeoutStep_cases s <;> rw [e] <;> exact .of_eq rfl rfl

theorem eventStep_extends {e : Event} {s t : State} (h : eventStep e s = .next t) : Extends s t := by
  cases e with
  | go => exact goStep_extends h
  | core e => obtain rfl := Host.Outcome.next.inj h; exact coreStep_extends e s
  | irq => obtain rfl := Host.Outcome.next.inj h; exact irqStep_extends s
  | timeout => obtain rfl := Host.Outcome.next.inj h; exact timeoutStep_extends s
  | present p | pause => obtain rfl := Host.Outcome.next.inj h; exact .of_eq rfl rfl

theorem drive_extends {es : List Event} {s t : State} (h : drive es s = .next t) : Extends s t := by
  induction es generalizing s with
  | nil => exact (runQuiet_extends (s := { s with script := [] }) h).of_same rfl rfl
  | cons e es ih =>
    obtain ⟨-, rfl⟩ | ⟨-, -, rfl⟩ | ⟨-, -, u, hu, hd⟩ := drive_cons_cases h
    · exact .of_eq rfl rfl
    · exact .of_eq rfl rfl
    · exact (eventStep_extends hu).trans (ih hd)

theorem exec_extends {i : Instr} {s t : State} (h : exec i s = .next t) : Extends s t := by
  obtain ⟨-, check, steps, ha⟩ := exec_next h
  obtain ⟨code, -, rfl⟩ | ⟨-, hd⟩ := accept_cases ha
  · exact .of_eq rfl rfl
  · exact (drive_extends hd).of_same rfl rfl

theorem hostTurn_extends {s t : State} (h : hostTurn s = .next t) : Extends s t := by
  obtain ⟨-, rfl⟩ | ⟨q, rest, i, -, -, hx⟩ | ⟨q, rest, e, -, -, rfl⟩ := hostTurn_cases h
  · exact Extends.refl _
  · exact (exec_extends hx).of_same rfl rfl
  · exact .of_eq rfl rfl

theorem step_extends {s t : State} (h : step s = .next t) : Extends s t := by
  obtain ⟨-, -, hh⟩ | ⟨-, es, -, hh⟩ | ⟨-, es, -, rfl⟩ | ⟨-, e, es, u, -, -, -, hu, hd⟩ | ⟨-, hd⟩ := step_cases h
  · exact hostTurn_extends hh
  · exact (hostTurn_extends hh).of_same rfl rfl
  · exact .of_eq rfl rfl
  · exact (eventStep_extends hu).trans (drive_extends hd)
  · exact drive_extends hd

/-- Settles O60: every layer of a step keeps `par` and only appends to `evs`. -/
theorem stepKeepsParametersAndEvents : Obligations.StepKeepsParametersAndEvents := by
  unfold Obligations.StepKeepsParametersAndEvents
  intro s t h
  obtain ⟨hp, he⟩ := step_extends h
  exact ⟨hp, he⟩

end Sys2Proof.Machine

/-!
PROOFS. State and environment: the reset state (O53), register reads (O41), the default control words (O44), the CORE
agent (O45).
-/

namespace Sys2Proof.Machine

/-! ## Reset (R45) -/

/-- Settles O53: every field of the reset state evaluates; nothing is in progress and the block is not live. -/
theorem resetSatisfiesInvariants : Obligations.ResetSatisfiesInvariants := by
  unfold Obligations.ResetSatisfiesInvariants
  have domains : State.reset.DomainInv :=
    ⟨fun c => by rw [State.reset, Quad.get_fill]; decide, by decide, by simp [State.reset], by simp [State.reset]⟩
  have contexts : State.reset.ContextInv :=
    ⟨List.nil_suffix, by simp [State.reset], by simp [State.reset]⟩
  have idle : State.reset.IdleInv := ⟨Params.default_wf, rfl, rfl, rfl, rfl, by simp [State.reset]⟩
  exact ⟨domains, contexts, idle, rfl, rfl, rfl, rfl⟩

/-! ## The readable registers (R14, R56) -/

/-- A read of PEND0 finds the flags of A and B, whatever the reserved bits are drawn as (R28, R56). -/
theorem memRead_pend0 {s : State} (h : s.par.Wf) :
    ∃ v, memRead (s.par.regmap.offset .pend0) 2 s = .ok (v, { s with draws := s.draws + 1 }) ∧
      takeFlags s.par.pend .chA v = (s.hw.get .chA).pend ∧ takeFlags s.par.pend .chB v = (s.hw.get .chB).pend := by
  have pair : samePair .chA .chB := .inl ⟨rfl, rfl⟩
  have ⟨_, _, _, hp⟩ := h
  exact ⟨_, memRead_offset h .pend0, takeFlags_pendWord_left hp pair _ _ _, takeFlags_pendWord_right hp pair _ _ _⟩

/-- A read of PEND1 finds the flags of C and D, whatever the reserved bits are drawn as (R28, R56). -/
theorem memRead_pend1 {s : State} (h : s.par.Wf) :
    ∃ v, memRead (s.par.regmap.offset .pend1) 2 s = .ok (v, { s with draws := s.draws + 1 }) ∧
      takeFlags s.par.pend .chC v = (s.hw.get .chC).pend ∧ takeFlags s.par.pend .chD v = (s.hw.get .chD).pend := by
  have pair : samePair .chC .chD := .inr (.inr (.inl ⟨rfl, rfl⟩))
  have ⟨_, _, _, hp⟩ := h
  exact ⟨_, memRead_offset h .pend1, takeFlags_pendWord_left hp pair _ _ _, takeFlags_pendWord_right hp pair _ _ _⟩

/-- Settles O41: an access at the offset of a register reaches it, and a draw does not reach a flag. -/
theorem registerReadsMeaning : Obligations.RegisterReadsMeaning := by
  unfold Obligations.RegisterReadsMeaning
  intro s c h
  exact ⟨memRead_offset h (.cntLo c), memRead_offset h (.cntHi c), memRead_pend0 h, memRead_pend1 h⟩

/-! ## The control words under the default layouts (R21, R25) -/

/-- A field wide enough for the value put into it holds the value, moved to its place. -/
theorem fieldPut_zeroExtend {n : Nat} {f : Field} (v : BitVec n) (h : n ≤ f.width) :
    fieldPut f (v.zeroExtend 16) = v.zeroExtend 16 <<< f.pos := by
  rw [fieldPut, zeroExtend_and_lowMask v f.width h]

/-- A field of one bit or more holds a flag, moved to its place. -/
theorem fieldPut_bit16 {f : Field} (b : Bool) (h : 1 ≤ f.width) : fieldPut f (bit16 b) = bit16 b <<< f.pos := by
  have e : bit16 b = (BitVec.ofBool b).zeroExtend 16 := by cases b <;> rfl
  rw [e, fieldPut_zeroExtend _ h]

/-- A flag as a field value, moved to its place, as a number. -/
theorem bit16_shiftLeft (b : Bool) (n : Nat) : bit16 b <<< n = (((if b then 1 else 0) <<< n : Nat) : Reg16) := by
  apply BitVec.eq_of_toNat_eq
  cases b <;> simp [bit16]

/-- Settles O44: each field of a default layout holds its value whole, at its position. -/
theorem defaultControlWords : Obligations.DefaultControlWords := by
  unfold Obligations.DefaultControlWords
  intro r
  constructor
  · rw [cctlWord, fieldPut_zeroExtend _ (by decide), fieldPut_zeroExtend _ (by decide),
      fieldPut_zeroExtend _ (by decide), fieldPut_zeroExtend _ (by decide), fieldPut_zeroExtend _ (by decide)]
    simp [CctlLayout.default, CctlLayout.fMode, CctlLayout.fLoad, CctlLayout.fClr, CctlLayout.fSto,
      CctlLayout.fTstart]
  · rw [ictlWord, fieldPut_bit16 _ (by decide), fieldPut_zeroExtend _ (by decide), fieldPut_zeroExtend _ (by decide),
      fieldPut_bit16 _ (by decide), fieldPut_bit16 _ (by decide)]
    simp [IctlLayout.default, IctlLayout.fIen, IctlLayout.fCmpirq, IctlLayout.fCbirq, IctlLayout.fLben,
      IctlLayout.fXen, bit16_shiftLeft]
    cases r.ien <;> rfl

/-! ## The CORE agent (R39 to R43) -/

/-- Quiescence field by field (R40). -/
theorem quiescent_iff (l : CctlLayout) (w : Reg16) :
    quiescent l w = true ↔ fieldGet l.fMode w = 0 ∧ fieldGet l.fLoad w = 0 ∧ fieldGet l.fClr w = 0 ∧
      fieldGet l.fSto w = 0 := by
  simp only [quiescent, Bool.and_eq_true, beq_iff_eq, and_assoc]

/-- What a CORE event can do: nothing, or change the flags, the gate, the count and the latch of one channel; the
count and the latch only if that channel is not quiescent (R39 to R42). -/
theorem coreStep_cases (e : CoreEvent) (s : State) :
    coreStep e s = s ∨ ∃ c n l p g, coreStep e s = s.modHw c (fun h => { h with cnt := n, lat := l, pend := p, tb := g }) ∧
      (quiescent s.par.cctl (s.hw.get c).cntctl = true → n = (s.hw.get c).cnt ∧ l = (s.hw.get c).lat) := by
  cases e with
  | setPending c b => exact .inr ⟨c, (s.hw.get c).cnt, (s.hw.get c).lat, _, (s.hw.get c).tb, rfl, fun _ => ⟨rfl, rfl⟩⟩
  | gateClose c => exact .inr ⟨c, (s.hw.get c).cnt, (s.hw.get c).lat, (s.hw.get c).pend, _, rfl, fun _ => ⟨rfl, rfl⟩⟩
  | perturb c n l =>
    cases hq : quiescent s.par.cctl (s.hw.get c).cntctl
    · exact .inr ⟨c, n, l, (s.hw.get c).pend, (s.hw.get c).tb, by simp [coreStep, hq, State.modHw], by simp [hq]⟩
    · exact .inl (by simp [coreStep, hq])

/-- One CORE event leaves CNTCTL of every channel, and the count and the latch of a quiescent one (R40). -/
theorem coreStep_quiescent (e : CoreEvent) {s : State} {c : Chan}
    (h : quiescent s.par.cctl (s.hw.get c).cntctl = true) :
    (coreStep e s).par = s.par ∧ ((coreStep e s).hw.get c).cntctl = (s.hw.get c).cntctl ∧
      ((coreStep e s).hw.get c).cnt = (s.hw.get c).cnt ∧ ((coreStep e s).hw.get c).lat = (s.hw.get c).lat := by
  obtain e | ⟨d, n, l, p, g, e, hq⟩ := coreStep_cases e s <;> rw [e]
  · exact ⟨rfl, rfl, rfl, rfl⟩
  · by_cases hd : c = d
    · subst hd
      simpa using hq h
    · simp [hd]

/-- No list of CORE events changes the count or the latch of a quiescent channel (R40). -/
theorem coreEvents_quiescent (es : List CoreEvent) {s : State} {c : Chan}
    (h : quiescent s.par.cctl (s.hw.get c).cntctl = true) :
    ((coreEvents es s).hw.get c).cnt = (s.hw.get c).cnt ∧ ((coreEvents es s).hw.get c).lat = (s.hw.get c).lat := by
  induction es generalizing s with
  | nil => exact ⟨rfl, rfl⟩
  | cons e es ih =>
    obtain ⟨hp, hw, hn, hl⟩ := coreStep_quiescent e h
    obtain ⟨kn, kl⟩ := ih (s := coreStep e s) (by rw [hp, hw]; exact h)
    exact ⟨kn.trans hn, kl.trans hl⟩

/-- Settles O45: the three events by their definition, quiescence field by field, lists of events by induction. -/
theorem coreEventsMeaning : Obligations.CoreEventsMeaning := by
  unfold Obligations.CoreEventsMeaning
  intro s c b n l
  refine ⟨rfl, rfl, quiescent_iff _, fun h => ?_, fun h es => coreEvents_quiescent es h⟩
  simp [coreStep, h]

end Sys2Proof.Machine

/-!
PROOFS. The step in layers: what the action of a micro-step can do, the induction along the schedule (`Kept`), the
micro-steps of each command (`microSteps`, `exec_cases`), and the induction over steps (`StepKept`). The invariants
below rest on these.
-/

namespace Sys2Proof.Machine

/-! ## What the action of a micro-step can do -/

/-- `P` holds of the state an action leaves when the list it stands in goes on. -/
def Flow.OnCont (P : State → Prop) : Flow → Prop
  | .cont t => P t
  | _ => True

theorem Flow.OnCont.apply {P : State → Prop} {x : Flow} {t : State} (h : x.OnCont P) (e : x = .cont t) : P t := by
  rw [e] at h
  exact h

theorem Flow.onCont_ofWrite {P : State → Prop} {x : Except Refusal State} (h : ∀ t, x = .ok t → P t) :
    (Flow.ofWrite x).OnCont P := by
  cases x with
  | ok t => exact h t rfl
  | error r => trivial

theorem Flow.onCont_ofRead {P : State → Prop} {store : Reg16 → State → State} {x : Except Refusal (Reg16 × State)}
    (h : ∀ v t, x = .ok (v, t) → P (store v t)) : (Flow.ofRead store x).OnCont P := by
  cases x with
  | ok p => exact h p.1 p.2 rfl
  | error r => trivial

/-- `t` is `s` but for hardware, events, draws, the handler's locals, the values a command has read, and the shadow
and the semaphore of each record. -/
structure Minor (s t : State) : Prop where
  par : t.par = s.par
  prog : t.prog = s.prog
  hprog : t.hprog = s.hprog
  inh : t.inh = s.inh
  imask : t.imask = s.imask
  live : t.live = s.live
  ptofs : t.ptofs = s.ptofs
  octl0 : t.octl0 = s.octl0
  octl1 : t.octl1 = s.octl1
  ocfg : t.ocfg = s.ocfg
  stest : t.stest = s.stest
  readMode : t.loc.m = s.loc.m
  arm : t.loc.arm = s.loc.arm
  records : ∀ c, ∃ p r, t.ch.get c = { s.ch.get c with pss := p, rsem := r }

/-- A change of none of the records and of no element that `Minor` names. -/
theorem Minor.of_eq {s t : State} (h : t = { s with
      hw := t.hw, outctl0 := t.outctl0, outctl1 := t.outctl1, outcfg := t.outcfg, selftest := t.selftest,
      irqcnt := t.irqcnt, evs := t.evs, hloc := t.hloc, draws := t.draws,
      loc := { s.loc with l := t.loc.l, h := t.loc.h, v := t.loc.v } }) : Minor s t := by
  rw [h]
  exact ⟨rfl, rfl, rfl, rfl, rfl, rfl, rfl, rfl, rfl, rfl, rfl, rfl, rfl, fun c => ⟨_, _, rfl⟩⟩

theorem Minor.refl (s : State) : Minor s s := .of_eq rfl

theorem Minor.trans {s t u : State} (h : Minor s t) (k : Minor t u) : Minor s u where
  par := k.par.trans h.par
  prog := k.prog.trans h.prog
  hprog := k.hprog.trans h.hprog
  inh := k.inh.trans h.inh
  imask := k.imask.trans h.imask
  live := k.live.trans h.live
  ptofs := k.ptofs.trans h.ptofs
  octl0 := k.octl0.trans h.octl0
  octl1 := k.octl1.trans h.octl1
  ocfg := k.ocfg.trans h.ocfg
  stest := k.stest.trans h.stest
  readMode := k.readMode.trans h.readMode
  arm := k.arm.trans h.arm
  records c := by
    obtain ⟨p, r, e⟩ := h.records c
    obtain ⟨p', r', e'⟩ := k.records c
    exact ⟨p', r', by rw [e', e]⟩

theorem modRec_get (s : State) (c d : Chan) (f : ChanRec → ChanRec) :
    (s.modRec c f).ch.get d = if d = c then f (s.ch.get d) else s.ch.get d := by
  rw [modRec_ch, Quad.get_set]
  split
  · next h => rw [h]
  · rfl

theorem modHw_get (s : State) (c d : Chan) (f : HwChan → HwChan) :
    (s.modHw c f).hw.get d = if d = c then f (s.hw.get d) else s.hw.get d := by
  rw [modHw_hw, Quad.get_set]
  split
  · next h => rw [h]
  · rfl

/-- A change of the shadow or the semaphore of one channel. -/
theorem minor_modRec {s : State} {c : Chan} {f : ChanRec → ChanRec}
    (h : ∀ x, ∃ p r, f x = { x with pss := p, rsem := r }) : Minor s (s.modRec c f) :=
  ⟨rfl, rfl, rfl, rfl, rfl, rfl, rfl, rfl, rfl, rfl, rfl, rfl, rfl, fun d => by
    rw [modRec_get]
    split
    · exact h _
    · exact ⟨_, _, rfl⟩⟩

theorem memWrite_minor {addr size : Nat} {v : Reg16} {s t : State} (h : memWrite addr size v s = .ok t) :
    Minor s t := by
  obtain ⟨r, -, hr⟩ := memWrite_ok h
  have e := writeReg_ok_frame hr
  generalize t.hw = hw, t.outctl0 = o0, t.outctl1 = o1, t.outcfg = oc, t.selftest = st at e
  subst e
  exact .of_eq rfl

theorem memRead_minor {addr size : Nat} {v : Reg16} {s t : State} (h : memRead addr size s = .ok (v, t)) :
    Minor s t := by
  obtain ⟨r, -, hr⟩ := memRead_ok h
  have e := readReg_ok_frame hr
  generalize t.draws = n at e
  subst e
  exact .of_eq rfl

theorem foldAll_minor (s : State) : Minor s (foldAll s) := by
  refine List.foldlRecOn Chan.all foldChan (Minor.refl s) fun t h c _ => h.trans ?_
  obtain ⟨-, e⟩ | ⟨-, e⟩ := foldChan_cases t c <;> rw [e]
  · exact minor_modRec fun x => ⟨_, _, rfl⟩
  · exact (minor_modRec fun x => ⟨_, _, rfl⟩).trans (.of_eq rfl)

theorem signalAll_minor (s : State) : Minor s (signalAll s) := by
  refine List.foldlRecOn Chan.all signalChan (Minor.refl s) fun t h c _ => h.trans ?_
  obtain e | e := signalChan_cases t c <;> rw [e]
  · exact Minor.refl t
  · exact (minor_modRec fun x => ⟨_, _, rfl⟩).trans (.of_eq rfl)

theorem notifyAll_minor (s : State) : Minor s (notifyAll s) := by
  obtain ⟨es, e⟩ := notifyAll_cases s
  rw [e]
  exact .of_eq rfl

/-- The actions whose effect depends on the state they meet: register accesses, READ's wait, the handler's passes. -/
def Act.isMinor : Act → Bool
  | .write _ _ | .await _ | .readLo _ | .readHi _ | .statQuery _ | .statClear _ _ | .hPend0 | .hPend1 | .hFold
  | .hCntLo | .hCntHi | .hSem | .hNotify | .hOwn | .pssZero _ => true
  | _ => false

theorem Act.run_minor {a : Act} (ha : a.isMinor = true) (s : State) : (a.run s).OnCont (Minor s) := by
  cases a with
  | write r src => exact Flow.onCont_ofWrite fun _ h => memWrite_minor h
  | readLo c | readHi c | hPend0 | hPend1 | hCntLo | hCntHi =>
    exact Flow.onCont_ofRead fun _ _ h => (memRead_minor h).trans (.of_eq rfl)
  | await c =>
    simp only [Act.run]
    split
    · exact minor_modRec fun x => ⟨_, _, rfl⟩
    · split <;> trivial
  | statQuery c =>
    simp only [Act.run]
    split
    · exact .of_eq rfl
    · exact Flow.onCont_ofRead fun _ _ h => (memRead_minor h).trans (.of_eq rfl)
  | statClear c mask =>
    simp only [Act.run]
    split
    · exact minor_modRec fun x => ⟨_, _, rfl⟩
    · exact Flow.onCont_ofWrite fun _ h => memWrite_minor h
  | hFold => exact foldAll_minor s
  | hSem => exact signalAll_minor s
  | hNotify => exact notifyAll_minor s
  | hOwn =>
    simp only [Act.run]
    split
    · trivial
    · exact Minor.refl s
  | pssZero c => exact minor_modRec fun x => ⟨_, _, rfl⟩
  | _ => cases ha

/-- Only READ's wait stays where it is (R111). -/
theorem Act.run_blocked {a : Act} {s : State} (h : a.run s = .blocked) : ∃ c, a = .await c := by
  have ofWrite : ∀ x, Flow.ofWrite x ≠ .blocked := fun x => by cases x <;> simp [Flow.ofWrite]
  have ofRead : ∀ f x, Flow.ofRead f x ≠ .blocked := fun f x => by cases x <;> simp [Flow.ofRead]
  cases a with
  | await c => exact ⟨c, rfl⟩
  | write r src => exact absurd h (ofWrite _)
  | readLo c | readHi c | hPend0 | hPend1 | hCntLo | hCntHi => exact absurd h (ofRead _ _)
  | statQuery c =>
    simp only [Act.run] at h
    split at h
    · cases h
    · exact absurd h (ofRead _ _)
  | statClear c mask =>
    simp only [Act.run] at h
    split at h
    · cases h
    · exact absurd h (ofWrite _)
  | hOwn =>
    simp only [Act.run] at h
    split at h <;> cases h
  | _ => cases h

/-- The actions that can end the list they stand in: a response, or the return of the handler. -/
def Act.ends : Act → Bool
  | .await _ | .ret _ | .hOwn | .hEnd => true
  | _ => false

/-- A list ends with the response of the command, or with the return of the handler (R111, R236, R241). -/
theorem Act.run_ended {a : Act} {s t : State} (h : a.run s = .ended t) :
    (a.ends = true ∧ a.handlerOnly = false ∧ ∃ code v, t = s.respond code v) ∨
    (a.ends = true ∧ a.handlerOnly = true ∧ ∃ result, t = s.leaveHandler result) := by
  have ofWrite : ∀ x, Flow.ofWrite x ≠ .ended t := fun x => by cases x <;> simp [Flow.ofWrite]
  have ofRead : ∀ f x, Flow.ofRead f x ≠ .ended t := fun f x => by cases x <;> simp [Flow.ofRead]
  cases a with
  | await c =>
    simp only [Act.run] at h
    split at h
    · cases h
    · split at h
      · cases h; exact .inl ⟨rfl, rfl, _, _, rfl⟩
      · cases h
  | ret q => cases h; exact .inl ⟨rfl, rfl, _, _, rfl⟩
  | hOwn =>
    simp only [Act.run] at h
    split at h
    · cases h; exact .inr ⟨rfl, rfl, _, rfl⟩
    · cases h
  | hEnd => cases h; exact .inr ⟨rfl, rfl, _, rfl⟩
  | write r src => exact absurd h (ofWrite _)
  | readLo c | readHi c | hPend0 | hPend1 | hCntLo | hCntHi => exact absurd h (ofRead _ _)
  | statQuery c =>
    simp only [Act.run] at h
    split at h
    · cases h
    · exact absurd h (ofRead _ _)
  | statClear c mask =>
    simp only [Act.run] at h
    split at h
    · cases h
    · exact absurd h (ofWrite _)
  | _ => cases h

/-- No action moves an agent to another place or changes `inh`, but those that end a list (R65). -/
theorem Act.run_place {a : Act} {s t : State} (h : a.run s = .cont t) :
    t.prog = s.prog ∧ t.hprog = s.hprog ∧ t.inh = s.inh ∧ t.par = s.par := by
  cases a with
  | write | await | readLo | readHi | statQuery | statClear | hPend0 | hPend1 | hFold | hCntLo | hCntHi | hSem
  | hNotify | hOwn | pssZero =>
    have m := (Act.run_minor rfl s).apply h
    exact ⟨m.prog, m.hprog, m.inh, m.par⟩
  | ret | hEnd => cases h
  | _ => cases h; exact ⟨rfl, rfl, rfl, rfl⟩

/-- A micro-step that goes on: its guard is false and nothing happens, or its action does. -/
theorem Micro.run_cont {m : Micro} {s t : State} (h : m.run s = .cont t) :
    (m.guard.holds s = false ∧ t = s) ∨ (m.guard.holds s = true ∧ m.act.run s = .cont t) := by
  unfold Micro.run at h
  split at h
  · next hg => exact .inr ⟨hg, h⟩
  · next hg => cases h; exact .inl ⟨by simpa using hg, rfl⟩

theorem Micro.run_ended {m : Micro} {s t : State} (h : m.run s = .ended t) : m.act.run s = .ended t := by
  unfold Micro.run at h
  split at h
  · exact h
  · cases h

theorem Micro.run_blocked {m : Micro} {s : State} (h : m.run s = .blocked) : ∃ c, m.act = .await c := by
  unfold Micro.run at h
  split at h
  · exact Act.run_blocked h
  · cases h

theorem Micro.run_place {m : Micro} {s t : State} (h : m.run s = .cont t) :
    t.prog = s.prog ∧ t.hprog = s.hprog ∧ t.inh = s.inh ∧ t.par = s.par := by
  obtain ⟨-, rfl⟩ | ⟨-, ha⟩ := Micro.run_cont h
  · exact ⟨rfl, rfl, rfl, rfl⟩
  · exact Act.run_place ha

/-! ## What every step keeps, from what each micro-step and each event keeps -/

/-- No handler invocation is in progress, or it waits (none of h1 to h11 does): the command may be next. -/
def State.HandlerRests (s : State) : Prop := s.hprog = [] ∨ ∃ m ∈ s.hprog, ∃ c, m.act = .await c

/-- Every micro-step of an agent at its place and every event of the schedule keep `J` (R65). -/
structure Kept (J : State → Prop) : Prop where
  handler : ∀ {m : Micro} {rest : List Micro} {s t : State},
    J (s.setPosition .irq (m :: rest)) → takeMicro .irq m rest s = .next t → J t
  command : ∀ {m : Micro} {rest : List Micro} {s t : State},
    s.HandlerRests → J (s.setPosition .host (m :: rest)) → takeMicro .host m rest s = .next t → J t
  core : ∀ {s : State} (e : CoreEvent), J s → J (coreStep e s)
  irq : ∀ {s : State}, J s → J (irqStep s)
  timeout : ∀ {s : State}, J s → J (timeoutStep s)
  present : ∀ {s : State} (p : CfgPort), J s → J { s with cfg := p }
  script : ∀ {s : State} (es : List Event), J s → J { s with script := es }

section
variable {J : State → Prop} {s t : State}

theorem setPosition_irq_self {ms : List Micro} (h : s.hprog = ms) : s.setPosition .irq ms = s := by
  subst h; rfl

theorem setPosition_host_self {ms : List Micro} (h : s.prog = ms) : s.setPosition .host ms = s := by
  subst h; rfl

theorem takeMicro_of_cont {a : Agent} {m : Micro} {rest : List Micro} {u : State} (h : m.run s = .cont u) :
    takeMicro a m rest s = .next (u.setPosition a rest) := by simp only [takeMicro, h]

theorem takeMicro_of_ended {a : Agent} {m : Micro} {rest : List Micro} {u : State} (h : m.run s = .ended u) :
    takeMicro a m rest s = .next (u.setPosition a []) := by simp only [takeMicro, h]

/-- The handler's list run to its end, or to a wait. -/
theorem Kept.runSteps_irq (k : Kept J) {ms : List Micro} (hj : J (s.setPosition .irq ms))
    (h : runSteps .irq ms s = .next t) : J t ∧ t.HandlerRests := by
  induction ms generalizing s with
  | nil =>
    obtain rfl := Host.Outcome.next.inj h
    exact ⟨hj, .inl rfl⟩
  | cons m rest ih =>
    obtain ⟨u, hu, hr⟩ | ⟨u, hu, rfl⟩ | ⟨hb, rfl⟩ := runSteps_cons_cases h
    · exact ih (k.handler hj (takeMicro_of_cont hu)) hr
    · exact ⟨k.handler hj (takeMicro_of_ended hu), .inl rfl⟩
    · exact ⟨hj, .inr ⟨m, List.mem_cons_self .., Micro.run_blocked hb⟩⟩

/-- The command's list run to its end, or to a wait. -/
theorem Kept.runSteps_host (k : Kept J) {ms : List Micro} (hs : s.HandlerRests) (hj : J (s.setPosition .host ms))
    (h : runSteps .host ms s = .next t) : J t := by
  induction ms generalizing s with
  | nil =>
    obtain rfl := Host.Outcome.next.inj h
    exact hj
  | cons m rest ih =>
    obtain ⟨u, hu, hr⟩ | ⟨u, hu, rfl⟩ | ⟨hb, rfl⟩ := runSteps_cons_cases h
    · have hp : u.hprog = s.hprog := (Micro.run_place hu).2.1
      exact ih (by rwa [State.HandlerRests, hp]) (k.command hs hj (takeMicro_of_cont hu)) hr
    · exact k.command hs hj (takeMicro_of_ended hu)
    · exact hj

theorem Kept.runQuiet (k : Kept J) (hj : J s) (h : runQuiet s = .next t) : J t := by
  obtain ⟨u, hq, hp⟩ := runQuiet_next h
  obtain ⟨ju, hu⟩ := k.runSteps_irq (by rwa [setPosition_irq_self rfl]) hq
  exact k.runSteps_host hu (by rwa [setPosition_host_self rfl]) hp

theorem Kept.goStep (k : Kept J) (hj : J s) (h : goStep s = .next t) : J t := by
  obtain ⟨m, rest, hq, hm⟩ | ⟨m, rest, hq, hp, hm⟩ | ⟨-, -, rfl⟩ := goStep_cases h
  · exact k.handler (by rwa [setPosition_irq_self hq]) hm
  · exact k.command (.inl hq) (by rwa [setPosition_host_self hp]) hm
  · exact hj

theorem Kept.eventStep (k : Kept J) {e : Event} (hj : J s) (h : eventStep e s = .next t) : J t := by
  cases e with
  | go => exact k.goStep hj h
  | core e => obtain rfl := Host.Outcome.next.inj h; exact k.core e hj
  | irq => obtain rfl := Host.Outcome.next.inj h; exact k.irq hj
  | timeout => obtain rfl := Host.Outcome.next.inj h; exact k.timeout hj
  | present p => obtain rfl := Host.Outcome.next.inj h; exact k.present p hj
  | pause => obtain rfl := Host.Outcome.next.inj h; exact hj

theorem Kept.drive (k : Kept J) {es : List Event} (hj : J s) (h : drive es s = .next t) : J t := by
  induction es generalizing s with
  | nil => exact k.runQuiet (k.script [] hj) h
  | cons e es ih =>
    obtain ⟨-, rfl⟩ | ⟨-, -, rfl⟩ | ⟨-, -, u, hu, hd⟩ := drive_cons_cases h
    · exact k.script _ hj
    · exact k.script _ hj
    · exact ih (k.eventStep hj hu) hd

end

/-! ## The micro-steps of each command -/

/-- The micro-steps of a command that its checks let pass; `p` is the CFG port, which INIT reads (R84, R85, R206). -/
def microSteps (p : CfgPort) : Instr → List Micro
  | .setMode c d => setModeSteps c d ++ [(Act.ret .zero).always]
  | .getMode c => [(Act.ret (.mode c)).always]
  | .setLoad c d => setLoadSteps c d ++ [(Act.ret .zero).always]
  | .getLoad c => [(Act.ret (.ldc c)).always]
  | .setClear c d => setClearSteps c d ++ [(Act.ret .zero).always]
  | .getClear c => [(Act.ret (.clc c)).always]
  | .setStore c d => setStoreSteps c d ++ [(Act.ret .zero).always]
  | .getStore c => [(Act.ret (.stc c)).always]
  | .setTstart c d => setTstartSteps c d ++ [(Act.ret .zero).always]
  | .getTstart c => [(Act.ret (.tst c)).always]
  | .setCompa c d => setCompaSteps c d ++ [(Act.ret .zero).always]
  | .getCompa c => [(Act.ret (.cmpA c)).always]
  | .setCompb c d => setCompbSteps c d ++ [(Act.ret .zero).always]
  | .getCompb c => [(Act.ret (.cmpB c)).always]
  | .setReadmode c d => setReadmodeSteps c d ++ [(Act.ret .zero).always]
  | .getReadmode c => [(Act.ret (.rdmode c)).always]
  | .setReadtout c d => setReadtoutSteps c d ++ [(Act.ret .zero).always]
  | .getReadtout c => [(Act.ret (.rdtout c)).always]
  | .setWritemode c d => setWritemodeSteps c d ++ [(Act.ret .zero).always]
  | .getWritemode c => [(Act.ret (.wrmode c)).always]
  | .freqstart c => [(Act.write (.cntctl c) (.cctlTb c)).always] ++ [(Act.ret .zero).always]
  | .setIrqen c d => setIrqenSteps c d ++ [(Act.ret .zero).always]
  | .getIrqen c => [(Act.ret (.ien c)).always]
  | .setCompirq c d => setCompirqSteps c d ++ [(Act.ret .zero).always]
  | .getCompirq c => [(Act.ret (.cmpirq c)).always]
  | .setCbirq c d => setCbirqSteps c d ++ [(Act.ret .zero).always]
  | .getCbirq c => [(Act.ret (.cbirq c)).always]
  | .setLbirq c d => setLbirqSteps c d ++ [(Act.ret .zero).always]
  | .getLbirq c => [(Act.ret (.lben c)).always]
  | .setXirq c d => setXirqSteps c d ++ [(Act.ret .zero).always]
  | .getXirq c => [(Act.ret (.xen c)).always]
  | .clrIrqstat c d =>
    [Act.maskOpen.always, (Act.statClear c (d.truncate 5)).always, Act.maskClose.always] ++ [(Act.ret .zero).always]
  | .getIrqstat c =>
    [Act.maskOpen.always, (Act.statQuery c).always, Act.maskClose.always] ++ [(Act.ret .status).always]
  | .siginst c k d =>
    ((kindOfField k).elim [] fun j => [(Act.setSig c j (some d)).always]) ++ [(Act.ret .zero).always]
  | .sigrem c k => ((kindOfField k).elim [] fun j => [(Act.setSig c j none).always]) ++ [(Act.ret .zero).always]
  | .setPtofs d => [(Act.setPtofs (clampOffset d)).always] ++ [(Act.ret .zero).always]
  | .getPtofs => [(Act.ret .ptofs).always]
  | .setPten d => ((Act.setPten (asBool d)).always :: armSteps) ++ [(Act.ret .zero).always]
  | .getPten => [(Act.ret .pten).always]
  | .setOutmode d => setOutmodeSteps d ++ [(Act.ret .zero).always]
  | .getOutmode => [(Act.ret .outmode).always]
  | .setOutset d => setOutsetSteps d ++ [(Act.ret .zero).always]
  | .getOutset => [(Act.ret .outset).always]
  | .setSelftest d => setSelftestSteps d ++ [(Act.ret .zero).always]
  | .getSelftest => [(Act.ret .selftest).always]
  | .getIrqcnt => [(Act.ret .irqcnt).always]
  | .write c d => writeSteps c d ++ [(Act.ret .zero).always]
  | .read c => readSteps c
  | .blkwrite _ | .blkread _ => [(Act.ret .zero).always]
  | .init => initSteps p ++ [(Act.ret .zero).always]
  | .exit => exitSteps ++ [(Act.ret .zero).always]

/-- The command passes its checks, and its micro-steps run under the schedule from `s` to `t` (R85). -/
structure Begins (i : Instr) (s t : State) : Prop where
  operand : i.wellFormed = true
  config : i = .init → cfgOk s.cfg = true
  runs : drive s.script { s with prog := microSteps s.cfg i } = .next t

theorem require_eq_none {b : Bool} (h : require b = none) : b = true := by
  cases b
  · cases h
  · rfl

/-- A KIND field that names an event kind is at most 4 (R23, R85 step 4). -/
theorem kindOfField_le {k : BitVec 3} {j : Kind} (h : kindOfField k = some j) : k.toNat ≤ 4 := by
  have le : ∀ k : BitVec 3, (kindOfField k).isSome = true → k.toNat ≤ 4 := by decide
  exact le k (by rw [h]; rfl)

theorem cfgOk_of_initCheck {p : CfgPort} (h : initCheck p = none) : cfgOk p = true := by
  unfold initCheck at h
  split at h
  · cases h
  · split at h
    · cases h
    · next hc => simpa using hc

/-- A command other than INIT, with the micro-steps `microSteps` gives it. -/
theorem begins_of_command {i : Instr} {check : Option (BitVec 4)} {s t : State} (hi : i ≠ .init)
    (hw : check = none → i.wellFormed = true) (h : command check (microSteps s.cfg i) s = .next t) :
    s.prog = [] ∧ (s.live = true ↔ i ≠ .init) ∧ ((∃ code, t = s.raise code) ∨ Begins i s t) := by
  obtain ⟨hp, hl, ha⟩ := command_next h
  refine ⟨hp, by simp [hl, hi], ?_⟩
  obtain ⟨code, -, rfl⟩ | ⟨hc, hd⟩ := accept_cases ha
  · exact .inl ⟨code, rfl⟩
  · exact .inr ⟨hw hc, fun e => absurd e hi, hd⟩

/-- What a command that is answered does: it finds no other in progress, INIT a block that is not live and any other
one that is, and either a check fails or its micro-steps run (R64, R85, R92). -/
theorem exec_cases {i : Instr} {s t : State} (h : exec i s = .next t) :
    s.prog = [] ∧ (s.live = true ↔ i ≠ .init) ∧ ((∃ code, t = s.raise code) ∨ Begins i s t) := by
  cases i with
  | setMode | setLoad | setClear | setStore | setTstart | setReadmode | setWritemode | setIrqen | setCompirq
  | setCbirq | setLbirq | setXirq | clrIrqstat | setPten | setOutset =>
    exact begins_of_command (by simp) (fun hc => require_eq_none hc) h
  | siginst c k d | sigrem c k =>
    cases hk : kindOfField k with
    | none =>
      simp only [exec, execSiginst, execSigrem, hk] at h
      obtain ⟨hp, hl, ha⟩ := command_next h
      exact ⟨hp, by simp [hl], .inl ⟨_, (Host.Outcome.next.inj ha).symm⟩⟩
    | some j =>
      simp only [exec, execSiginst, execSigrem, hk] at h
      exact begins_of_command (by simp) (fun _ => by simpa [Instr.wellFormed] using kindOfField_le hk)
        (by simp only [microSteps, hk, Option.elim_some]; exact h)
  | setSelftest d =>
    simp only [exec, execSetSelftest] at h
    split at h
    · cases h
    · exact begins_of_command (by simp) (fun hc => require_eq_none hc) h
  | blkread c | blkwrite c => exact begins_of_command (by simp) (fun _ => rfl) h
  | init =>
    obtain ⟨hp, hl, ha⟩ := execInit_next h
    refine ⟨hp, by simp [hl], ?_⟩
    obtain ⟨code, -, rfl⟩ | ⟨hc, hd⟩ := accept_cases ha
    · exact .inl ⟨code, rfl⟩
    · exact .inr ⟨rfl, fun _ => cfgOk_of_initCheck hc, hd⟩
  | _ => exact begins_of_command (by simp) (fun _ => rfl) h

/-- Besides what `Kept` says: an answer and a command that begins in an idle block keep `J`. -/
structure StepKept (J : State → Prop) : Prop extends Kept J where
  issue : ∀ {s : State} (qs : List Command), J s → J { s with inbox := qs }
  raise : ∀ {s : State} (code : BitVec 4), s.idle = true → J s → J (s.raise code)
  begin : ∀ {s : State} {i : Instr}, s.idle = true → J s → (s.live = true ↔ i ≠ .init) → i.wellFormed = true →
    (i = .init → cfgOk s.cfg = true) → J { s with prog := microSteps s.cfg i }

section
variable {J : State → Prop} {s t : State}

theorem StepKept.exec (k : StepKept J) {i : Instr} (hi : s.idle = true) (hj : J s) (h : exec i s = .next t) :
    J t := by
  obtain ⟨-, hl, ⟨code, rfl⟩ | ⟨ho, hc, hd⟩⟩ := exec_cases h
  · exact k.raise code hi hj
  · exact k.drive (k.begin hi hj hl ho hc) hd

theorem StepKept.hostTurn (k : StepKept J) (hi : s.idle = true) (hj : J s) (h : hostTurn s = .next t) : J t := by
  obtain ⟨-, rfl⟩ | ⟨q, rest, i, -, -, hx⟩ | ⟨q, rest, e, -, -, rfl⟩ := hostTurn_cases h
  · exact hj
  · exact k.exec (s := { s with inbox := rest }) hi (k.issue rest hj) hx
  · exact k.raise (s := { s with inbox := rest }) _ hi (k.issue rest hj)

/-- Every step keeps `J`, whatever the schedule. -/
theorem StepKept.step (k : StepKept J) (hj : J s) (h : step s = .next t) : J t := by
  obtain ⟨hi, -, hh⟩ | ⟨hi, es, -, hh⟩ | ⟨-, es, -, rfl⟩ | ⟨-, e, es, u, -, -, -, hu, hd⟩ | ⟨-, hd⟩ := step_cases h
  · exact k.hostTurn hi hj hh
  · exact k.hostTurn (s := { s with script := es }) hi (k.script es hj) hh
  · exact k.script es hj
  · exact k.drive (k.eventStep hj hu) hd
  · exact k.drive hj hd

end

end Sys2Proof.Machine

/-!
PROOFS. Invariants of every step under every schedule: only INIT and EXIT change `live` (O59), the domains of the
records (O54), the contexts of the two agents (O55).
-/

namespace Sys2Proof.Machine

/-! ## What the lists of micro-steps hold -/

/-- `live` is changed by i6 of INIT and x1 of EXIT (R33). -/
def Act.setsLive : Act → Bool
  | .goLive | .goDown => true
  | _ => false

/-- The conditions that stand in the handler's list only: they read the handler's locals (R168). -/
def Guard.ofHandler : Guard → Bool
  | .edge | .recompute | .teardown => true
  | _ => false

/-- A micro-step that any command may have: none of the handler's, and no change of `live`. -/
def Micro.plain (m : Micro) : Bool := !m.act.handlerOnly && !m.act.setsLive && !m.guard.ofHandler

/-- Every micro-step of the list is plain. -/
def Plain (ms : List Micro) : Prop := ∀ m ∈ ms, m.plain = true

@[simp] theorem plain_nil : Plain [] := by simp [Plain]

@[simp] theorem plain_cons (m : Micro) (ms : List Micro) : Plain (m :: ms) ↔ m.plain = true ∧ Plain ms :=
  List.forall_mem_cons

@[simp] theorem plain_append (ms ns : List Micro) : Plain (ms ++ ns) ↔ Plain ms ∧ Plain ns :=
  List.forall_mem_append

@[simp] theorem always_plain (a : Act) : a.always.plain = (!a.handlerOnly && !a.setsLive) := by
  simp [Micro.plain, Act.always, Guard.ofHandler]

@[simp] theorem under_plain (a : Act) (g : Guard) :
    (a.under g).plain = (!a.handlerOnly && !a.setsLive && !g.ofHandler) := rfl

@[simp] theorem writePair_plain (lo hi : Reg) (x y : Src) (g : Guard) :
    Plain (writePair lo hi x y g) ↔ g.ofHandler = false := by
  simp [writePair, Act.handlerOnly, Act.setsLive]

@[simp] theorem forceSteps_plain (c : Chan) (f : ForceField) (g : Guard) :
    Plain (forceSteps c f g) ↔ g.ofHandler = false := by
  simp [forceSteps, Act.handlerOnly, Act.setsLive]

theorem setModeSteps_plain (c : Chan) (d : Word) : Plain (setModeSteps c d) := by
  simp [setModeSteps, rewriteCctl, Act.handlerOnly, Act.setsLive]

theorem setLoadSteps_plain (c : Chan) (d : Word) : Plain (setLoadSteps c d) := by
  unfold setLoadSteps
  split
  · exact (forceSteps_plain ..).mpr rfl
  · simp [rewriteCctl, Act.handlerOnly, Act.setsLive]

theorem setClearSteps_plain (c : Chan) (d : Word) : Plain (setClearSteps c d) := by
  unfold setClearSteps
  split
  · exact (forceSteps_plain ..).mpr rfl
  · simp [rewriteCctl, Act.handlerOnly, Act.setsLive]

theorem setStoreSteps_plain (c : Chan) (d : Word) : Plain (setStoreSteps c d) := by
  unfold setStoreSteps
  split
  · exact (forceSteps_plain ..).mpr rfl
  · simp [rewriteCctl, Act.handlerOnly, Act.setsLive]

theorem setIrqenSteps_plain (c : Chan) (d : Word) : Plain (setIrqenSteps c d) := by
  unfold setIrqenSteps setIenSteps
  split <;> simp [ienOnSteps, ienOffSteps, Guard.ofHandler, Act.handlerOnly, Act.setsLive]

theorem setOutmodeSteps_plain (d : Word) : Plain (setOutmodeSteps d) := by
  simp [setOutmodeSteps, Act.handlerOnly, Act.setsLive]

theorem setOutsetSteps_plain (d : Word) : Plain (setOutsetSteps d) := by
  simp [setOutsetSteps, Act.handlerOnly, Act.setsLive]

theorem initChanSteps_plain (c : Chan) (g : CfgChan) : Plain (initChanSteps c g) := by
  simp only [initChanSteps, plain_append]
  refine ⟨setModeSteps_plain c _, setLoadSteps_plain c _, setClearSteps_plain c _, setStoreSteps_plain c _, ?_⟩
  simp [setTstartSteps, setCompaSteps, setCompbSteps, setCompirqSteps, setCbirqSteps, setLbirqSteps, setXirqSteps,
    setReadmodeSteps, setReadtoutSteps, setWritemodeSteps, rewriteCctl, rewriteIctl, Guard.ofHandler,
    Act.handlerOnly, Act.setsLive]

theorem armSteps_plain : Plain armSteps := by
  simp [armSteps, armRefSteps, armSlaveSteps, armOutputSteps, armEnableSteps, ienOnSteps,
    Guard.ofHandler, Act.handlerOnly, Act.setsLive]

/-- INIT's list but for its last micro-step, which changes `live`. -/
theorem initSteps_plain (p : CfgPort) : ∃ ms, Plain ms ∧ initSteps p = ms ++ [Act.goLive.always] := by
  refine ⟨[Act.zeroCtl.always, (Act.write .selftest (.const 0)).always] ++
    (initChanSteps .chA p.chans.a ++ (initChanSteps .chB p.chans.b ++ (initChanSteps .chC p.chans.c ++
      (initChanSteps .chD p.chans.d ++ (setOutmodeSteps p.outMode ++ (setOutsetSteps p.outSet ++
        (setIrqenSteps .chA p.chans.a.ien ++ (setIrqenSteps .chB p.chans.b.ien ++
          (setIrqenSteps .chC p.chans.c.ien ++ setIrqenSteps .chD p.chans.d.ien))))))))), ?_, ?_⟩
  · simp [initChanSteps_plain, setOutmodeSteps_plain, setOutsetSteps_plain, setIrqenSteps_plain, Act.handlerOnly,
      Act.setsLive]
  · simp only [initSteps, List.append_assoc]

/-- EXIT's list but for its first micro-step, which changes `live`. -/
theorem exitSteps_plain : ∃ ms, Plain ms ∧ exitSteps = Act.goDown.always :: ms := by
  refine ⟨_, ?_, rfl⟩
  simp [exitChanSteps, Act.handlerOnly, Act.setsLive]

/-- The micro-steps of every command but INIT and EXIT are plain. -/
theorem microSteps_plain {i : Instr} (p : CfgPort) (hi : i ≠ .init) (he : i ≠ .exit) : Plain (microSteps p i) := by
  cases i with
  | init => exact absurd rfl hi
  | exit => exact absurd rfl he
  | setMode c d => simp [microSteps, setModeSteps_plain, Act.handlerOnly, Act.setsLive]
  | setLoad c d => simp [microSteps, setLoadSteps_plain, Act.handlerOnly, Act.setsLive]
  | setClear c d => simp [microSteps, setClearSteps_plain, Act.handlerOnly, Act.setsLive]
  | setStore c d => simp [microSteps, setStoreSteps_plain, Act.handlerOnly, Act.setsLive]
  | setIrqen c d => simp [microSteps, setIrqenSteps_plain, Act.handlerOnly, Act.setsLive]
  | setPten d => simp [microSteps, armSteps_plain, Act.handlerOnly, Act.setsLive]
  | setOutmode d => simp [microSteps, setOutmodeSteps_plain, Act.handlerOnly, Act.setsLive]
  | setOutset d => simp [microSteps, setOutsetSteps_plain, Act.handlerOnly, Act.setsLive]
  | siginst c k d | sigrem c k =>
    simp only [microSteps]
    cases kindOfField k <;> simp [Act.handlerOnly, Act.setsLive]
  | write c d =>
    simp [microSteps, writeSteps, Guard.ofHandler, Act.handlerOnly, Act.setsLive]
  | read c =>
    simp [microSteps, readSteps, Guard.ofHandler, Act.handlerOnly, Act.setsLive]
  | _ =>
    simp [microSteps, setTstartSteps, setCompaSteps, setCompbSteps, setReadmodeSteps, setReadtoutSteps,
      setWritemodeSteps, setCompirqSteps, setCbirqSteps, setLbirqSteps, setXirqSteps, setSelftestSteps,
      rewriteCctl, rewriteIctl, Guard.ofHandler, Act.handlerOnly, Act.setsLive]

/-- A micro-step of a command is plain, or i6 of INIT, or x1 of EXIT. -/
theorem microSteps_cases {i : Instr} {p : CfgPort} {m : Micro} (hm : m ∈ microSteps p i) :
    m.plain = true ∨ (i = .init ∧ m = Act.goLive.always) ∨ (i = .exit ∧ m = Act.goDown.always) := by
  have response : (Act.ret .zero).always.plain = true := rfl
  by_cases hi : i = .init
  · obtain ⟨ms, hp, e⟩ := initSteps_plain p
    rw [hi, microSteps, e] at hm
    simp only [List.mem_append, List.mem_singleton] at hm
    obtain (hm | rfl) | rfl := hm
    · exact .inl (hp m hm)
    · exact .inr (.inl ⟨hi, rfl⟩)
    · exact .inl response
  by_cases he : i = .exit
  · obtain ⟨ms, hp, e⟩ := exitSteps_plain
    rw [he, microSteps, e] at hm
    simp only [List.cons_append, List.mem_cons, List.mem_append, List.not_mem_nil, or_false] at hm
    obtain rfl | hm | rfl := hm
    · exact .inr (.inr ⟨he, rfl⟩)
    · exact .inl (hp m hm)
    · exact .inl response
  · exact .inl (microSteps_plain p hi he m hm)

/-- No command performs a micro-step of the handler (R243). -/
theorem microSteps_separate {i : Instr} {p : CfgPort} {m : Micro} (hm : m ∈ microSteps p i) :
    m.act.handlerOnly = false := by
  obtain h | ⟨-, rfl⟩ | ⟨-, rfl⟩ := microSteps_cases hm
  · simp only [Micro.plain, Bool.and_eq_true, Bool.not_eq_true'] at h
    exact h.1.1
  · rfl
  · rfl

/-! ## A property that every action of a class keeps -/

/-- `R` holds, and every micro-step still to come has an action of the class `P`. -/
structure Carries (R : State → Prop) (P : Act → Bool) (s : State) : Prop where
  here : R s
  command : ∀ m ∈ s.prog, P m.act = true
  handler : ∀ m ∈ s.hprog, P m.act = true

/-- `R` is about the records, the offset and `live`, and every action of the class `P` keeps it; h1 to h11 are of the
class. -/
structure KeptByActs (R : State → Prop) (P : Act → Bool) : Prop where
  run : ∀ {a : Act} {s t : State}, P a = true → R s → a.run s = .cont t → R t
  same : ∀ {s t : State}, R s → t.ch = s.ch → t.ptofs = s.ptofs → t.live = s.live → R t
  handler : ∀ m ∈ handlerSteps, P m.act = true

section
variable {R : State → Prop} {P : Act → Bool} {s t : State}

/-- A state with the same records, offset, `live` and places. -/
theorem KeptByActs.carries_same (k : KeptByActs R P) (h : Carries R P s) (hc : t.ch = s.ch) (ho : t.ptofs = s.ptofs)
    (hl : t.live = s.live) (hp : t.prog = s.prog) (hq : t.hprog = s.hprog) : Carries R P t :=
  ⟨k.same h.here hc ho hl, by rw [hp]; exact h.command, by rw [hq]; exact h.handler⟩

theorem KeptByActs.micro_cont (k : KeptByActs R P) {m : Micro} (hm : P m.act = true) (hr : R s)
    (h : m.run s = .cont t) : R t := by
  obtain ⟨-, rfl⟩ | ⟨-, ha⟩ := Micro.run_cont h
  · exact hr
  · exact k.run hm hr ha

theorem KeptByActs.micro_ended (k : KeptByActs R P) {m : Micro} (hr : R s) (h : m.run s = .ended t) :
    R t ∧ t.prog = s.prog ∧ t.hprog = s.hprog := by
  obtain ⟨-, -, code, v, rfl⟩ | ⟨-, -, result, rfl⟩ := Act.run_ended (Micro.run_ended h)
  · exact ⟨k.same hr rfl rfl rfl, rfl, rfl⟩
  · exact ⟨k.same hr rfl rfl rfl, rfl, rfl⟩

theorem KeptByActs.takeMicro_irq (k : KeptByActs R P) {m : Micro} {rest : List Micro}
    (hj : Carries R P (s.setPosition .irq (m :: rest))) (h : takeMicro .irq m rest s = .next t) : Carries R P t := by
  obtain ⟨hr, hp, hq⟩ := hj
  obtain ⟨hm, hrest⟩ := List.forall_mem_cons.mp hq
  have here : R s := k.same hr rfl rfl rfl
  obtain ⟨u, hu, rfl⟩ | ⟨u, hu, rfl⟩ | ⟨-, rfl⟩ := takeMicro_cases h
  · obtain ⟨eprog, -, -, -⟩ := Micro.run_place hu
    exact ⟨k.same (k.micro_cont hm here hu) rfl rfl rfl, by simpa [eprog] using hp, hrest⟩
  · obtain ⟨hru, eprog, -⟩ := k.micro_ended here hu
    exact ⟨k.same hru rfl rfl rfl, by simpa [eprog] using hp, by simp⟩
  · exact ⟨hr, hp, hq⟩

theorem KeptByActs.takeMicro_host (k : KeptByActs R P) {m : Micro} {rest : List Micro}
    (hj : Carries R P (s.setPosition .host (m :: rest))) (h : takeMicro .host m rest s = .next t) :
    Carries R P t := by
  obtain ⟨hr, hp, hq⟩ := hj
  obtain ⟨hm, hrest⟩ := List.forall_mem_cons.mp hp
  have here : R s := k.same hr rfl rfl rfl
  obtain ⟨u, hu, rfl⟩ | ⟨u, hu, rfl⟩ | ⟨-, rfl⟩ := takeMicro_cases h
  · obtain ⟨-, ehprog, -, -⟩ := Micro.run_place hu
    exact ⟨k.same (k.micro_cont hm here hu) rfl rfl rfl, hrest, by simpa [ehprog] using hq⟩
  · obtain ⟨hru, -, ehprog⟩ := k.micro_ended here hu
    exact ⟨k.same hru rfl rfl rfl, by simp, by simpa [ehprog] using hq⟩
  · exact ⟨hr, hp, hq⟩

theorem coreStep_same (e : CoreEvent) (s : State) :
    (coreStep e s).ch = s.ch ∧ (coreStep e s).ptofs = s.ptofs ∧ (coreStep e s).live = s.live ∧
      (coreStep e s).prog = s.prog ∧ (coreStep e s).hprog = s.hprog := by
  obtain h | ⟨c, n, l, p, g, h, -⟩ := coreStep_cases e s <;> rw [h] <;> exact ⟨rfl, rfl, rfl, rfl, rfl⟩

/-- A property every action of a class keeps is kept by every micro-step of the class and by every event. -/
theorem KeptByActs.kept (k : KeptByActs R P) : Kept (Carries R P) where
  handler := k.takeMicro_irq
  command _ := k.takeMicro_host
  core {s} e h := by
    obtain ⟨hc, ho, hl, hp, hq⟩ := coreStep_same e s
    exact k.carries_same h hc ho hl hp hq
  irq {s} h := by
    obtain ⟨-, e⟩ | ⟨-, -, e⟩ | ⟨-, -, e⟩ := irqStep_cases s <;> rw [e]
    · exact h
    · exact ⟨k.same h.here rfl rfl rfl, h.command, k.handler⟩
    · exact k.carries_same h rfl rfl rfl rfl rfl
  timeout {s} h := by
    obtain e | ⟨g, c, rest, -, -, -, -, e⟩ := timeoutStep_cases s <;> rw [e]
    · exact h
    · exact ⟨k.same h.here rfl rfl rfl, by simp, h.handler⟩
  present _ h := k.carries_same h rfl rfl rfl rfl rfl
  script _ h := k.carries_same h rfl rfl rfl rfl rfl

end

/-! ## `live` (R33) -/

/-- An action that does not set `live` keeps it. -/
theorem Act.run_live {a : Act} {s t : State} (ha : a.setsLive = false) (h : a.run s = .cont t) :
    t.live = s.live := by
  cases a with
  | write | await | readLo | readHi | statQuery | statClear | hPend0 | hPend1 | hFold | hCntLo | hCntHi | hSem
  | hNotify | hOwn | pssZero => exact ((Act.run_minor rfl s).apply h).live
  | goLive | goDown => cases ha
  | ret | hEnd => cases h
  | _ => cases h; rfl

theorem live_keptByActs (b : Bool) : KeptByActs (fun s => s.live = b) (fun a => !a.setsLive) where
  run ha hs h := (Act.run_live (by simpa using ha) h).trans hs
  same hs _ _ hl := hl.trans hs
  handler := by decide

/-- Settles O59: no micro-step of such a command, nor of the handler that may interrupt it, sets `live`. -/
theorem onlyInitAndExitChangeLive : Obligations.OnlyInitAndExitChangeLive := by
  unfold Obligations.OnlyInitAndExitChangeLive
  intro i s t hc hi he h
  obtain ⟨-, -, ⟨code, rfl⟩ | ⟨-, -, hd⟩⟩ := exec_cases h
  · rfl
  · have k := live_keptByActs s.live
    refine (k.kept.drive (s := { s with prog := microSteps s.cfg i })
      ⟨rfl, fun m hm => ?_, fun m hm => k.handler m (hc.place.subset hm)⟩ hd).here
    have hp := microSteps_plain s.cfg hi he m hm
    simp only [Micro.plain, Bool.and_eq_true] at hp
    exact hp.1.2

/-! ## The domains (R15, R44) -/

/-- Every record is in its domain, and the offset is at least 25. -/
structure DomainsHold (s : State) : Prop where
  records : ∀ c, recOk (s.ch.get c) = true
  offset : 25 ≤ s.ptofs.toNat

theorem domainInv_iff (s : State) : s.DomainInv ↔ Carries DomainsHold Act.inDomain s :=
  ⟨fun ⟨hr, ho, hp, hq⟩ => ⟨⟨hr, ho⟩, hp, hq⟩, fun ⟨⟨hr, ho⟩, hp, hq⟩ => ⟨hr, ho, hp, hq⟩⟩

theorem recOk_iff (r : ChanRec) :
    recOk r = true ↔ (r.mode.toNat ≤ 10 ∧ r.mode ≠ 8) ∧ r.ldc ≠ 2 ∧ r.clc ≠ 2 ∧ (r.stc = 0 ∨ r.stc = 2) ∧
      r.cmpirq.toNat ≤ 5 ∧ r.rdmode.toNat ≤ 2 := by
  simp only [recOk, Bool.and_eq_true, Bool.or_eq_true, bne_iff_ne, beq_iff_eq, decide_eq_true_eq, ne_eq, and_assoc]

theorem DomainsHold.modRec {s : State} {c : Chan} {f : ChanRec → ChanRec} (h : DomainsHold s)
    (hf : ∀ r, recOk r = true → recOk (f r) = true) : DomainsHold (s.modRec c f) := by
  refine ⟨fun d => ?_, h.offset⟩
  rw [modRec_get]
  split
  · exact hf _ (h.records d)
  · exact h.records d

theorem DomainsHold.zeroCtl (s : State) : DomainsHold s.zeroCtl :=
  ⟨fun c => by rw [zeroCtl_ch, Quad.get_fill]; decide, by rw [zeroCtl_ptofs]; decide⟩

theorem DomainsHold.minor {s t : State} (h : DomainsHold s) (k : Minor s t) : DomainsHold t := by
  refine ⟨fun c => ?_, by rw [k.ptofs]; exact h.offset⟩
  obtain ⟨p, r, e⟩ := k.records c
  rw [e]
  exact h.records c

/-- An action that stores a value of its field's domain keeps the domains (R15, R44). -/
theorem DomainsHold.run {a : Act} {s t : State} (ha : a.inDomain = true) (hs : DomainsHold s)
    (h : a.run s = .cont t) : DomainsHold t := by
  cases a with
  | write | await | readLo | readHi | statQuery | statClear | hPend0 | hPend1 | hFold | hCntLo | hCntHi | hSem
  | hNotify | hOwn | pssZero => exact hs.minor ((Act.run_minor rfl s).apply h)
  | setMode | setLdc | setClc | setStc | setCmpirq | setRdmode =>
    cases h
    refine hs.modRec fun r hr => ?_
    rw [recOk_iff] at hr ⊢
    simp only [Act.inDomain, Bool.and_eq_true, Bool.or_eq_true, bne_iff_ne, beq_iff_eq, decide_eq_true_eq] at ha
    simp only [hr, ha, ne_eq, not_false_eq_true, and_self]
  | armRef | armSlave =>
    cases h
    refine hs.modRec fun r hr => ?_
    rw [recOk_iff] at hr ⊢
    obtain ⟨-, -, -, -, hcmpirq, hrdmode⟩ := hr
    simp [hcmpirq, hrdmode]
  | armMask =>
    cases h
    refine hs.modRec fun r hr => ?_
    rw [recOk_iff] at hr ⊢
    obtain ⟨hmode, hldc, hclc, hstc, -, hrdmode⟩ := hr
    exact ⟨hmode, hldc, hclc, hstc, by simp, hrdmode⟩
  | setTst | setCmpA | setCmpB | setRdtout | setWrmode | setCbirq | setLben | setXen | setSig | ienOn | ienOff =>
    cases h
    exact hs.modRec fun r hr => hr
  | setPtofs v => cases h; exact ⟨hs.records, by simpa [Act.inDomain] using ha⟩
  | zeroCtl => cases h; exact .zeroCtl s
  | goDown => cases h; exact ⟨(DomainsHold.zeroCtl s).records, (DomainsHold.zeroCtl s).offset⟩
  | ret | hEnd => cases h
  | _ => cases h; exact ⟨hs.records, hs.offset⟩

theorem domains_keptByActs : KeptByActs DomainsHold Act.inDomain where
  run := DomainsHold.run
  same h hc ho _ := ⟨by rw [hc]; exact h.records, by rw [ho]; exact h.offset⟩
  handler := by decide

/-! ### The values a command stores are in their domains (R87, R221) -/

/-- Every value the list stores is in the domain of its field. -/
def InDomain (ms : List Micro) : Prop := ∀ m ∈ ms, m.act.inDomain = true

@[simp] theorem inDomain_nil : InDomain [] := by simp [InDomain]

@[simp] theorem inDomain_cons (m : Micro) (ms : List Micro) :
    InDomain (m :: ms) ↔ m.act.inDomain = true ∧ InDomain ms := List.forall_mem_cons

@[simp] theorem inDomain_append (ms ns : List Micro) : InDomain (ms ++ ns) ↔ InDomain ms ∧ InDomain ns :=
  List.forall_mem_append

@[simp] theorem always_act (a : Act) : a.always.act = a := rfl

@[simp] theorem under_act (a : Act) (g : Guard) : (a.under g).act = a := rfl

@[simp] theorem writePair_inDomain (lo hi : Reg) (x y : Src) (g : Guard) : InDomain (writePair lo hi x y g) := by
  simp [writePair, Act.inDomain]

@[simp] theorem forceSteps_inDomain (c : Chan) (f : ForceField) (g : Guard) : InDomain (forceSteps c f g) := by
  simp [forceSteps, Act.inDomain]

theorem toNat_truncate_of_le {d : Word} {n w : Nat} (h : d.toNat ≤ n) (hw : n < 2 ^ w) :
    (d.truncate w).toNat = d.toNat := by
  rw [BitVec.truncate_eq_setWidth, BitVec.toNat_setWidth, Nat.mod_eq_of_lt (by omega)]

theorem setModeSteps_inDomain {c : Chan} {d : Word} (h : modeOk d = true) : InDomain (setModeSteps c d) := by
  simp only [modeOk, Bool.and_eq_true, decide_eq_true_eq, bne_iff_ne] at h
  obtain ⟨hle, hne⟩ := h
  have e := toNat_truncate_of_le (w := 4) hle (by decide)
  have ne : d.truncate 4 ≠ 8 := fun h8 => hne (by rw [← e, h8]; rfl)
  simp only [setModeSteps, rewriteCctl, inDomain_cons, always_act, Act.inDomain, e, hle, decide_true, Bool.true_and,
    bne_iff_ne, inDomain_nil, and_true]
  exact ne

/-- A two-bit operand in range is not 2 when the operand is not (R16 to R18). -/
theorem truncate_two_ne {d : Word} {v : BitVec 2} (h : d.toNat ≤ 3) (hd : d ≠ v.zeroExtend 32) : d.truncate 2 ≠ v := by
  have e := toNat_truncate_of_le (w := 2) h (by decide)
  rintro rfl
  exact hd (BitVec.eq_of_toNat_eq (by
    rw [BitVec.truncate_eq_setWidth, BitVec.toNat_setWidth, e, Nat.mod_eq_of_lt d.isLt]))

theorem setLoadSteps_inDomain {c : Chan} {d : Word} (h : upTo 3 d = true) : InDomain (setLoadSteps c d) := by
  unfold setLoadSteps
  split
  · simp
  · next hd =>
    have ne : d.truncate 2 ≠ 2 := truncate_two_ne (by simpa [upTo] using h) hd
    simpa [rewriteCctl, Act.inDomain] using ne

theorem setClearSteps_inDomain {c : Chan} {d : Word} (h : upTo 3 d = true) : InDomain (setClearSteps c d) := by
  unfold setClearSteps
  split
  · simp
  · next hd =>
    have ne : d.truncate 2 ≠ 2 := truncate_two_ne (by simpa [upTo] using h) hd
    simpa [rewriteCctl, Act.inDomain] using ne

theorem setStoreSteps_inDomain {c : Chan} {d : Word} (h : upTo 2 d = true) : InDomain (setStoreSteps c d) := by
  unfold setStoreSteps
  split
  · simp
  · next hd =>
    have hle : d.toNat ≤ 2 := by simpa [upTo] using h
    have n1 : d.truncate 2 ≠ 1 := truncate_two_ne (by omega) hd
    have n3 : d.truncate 2 ≠ 3 := truncate_two_ne (by omega) (by rintro rfl; simp at hle)
    have codes : ∀ v : BitVec 2, v ≠ 1 → v ≠ 3 → v = 0 ∨ v = 2 := by decide
    simpa [rewriteCctl, Act.inDomain] using codes _ n1 n3

theorem setCompirqSteps_inDomain {c : Chan} {d : Word} (h : upTo 5 d = true) : InDomain (setCompirqSteps c d) := by
  have hle : d.toNat ≤ 5 := by simpa [upTo] using h
  have e := toNat_truncate_of_le (w := 3) hle (by decide)
  simp only [setCompirqSteps, rewriteIctl, inDomain_cons, always_act, Act.inDomain, e, hle, decide_true, inDomain_nil,
    and_self]

theorem setReadmodeSteps_inDomain {c : Chan} {d : Word} (h : upTo 2 d = true) :
    InDomain (setReadmodeSteps c d) := by
  have hle : d.toNat ≤ 2 := by simpa [upTo] using h
  have e := toNat_truncate_of_le (w := 2) hle (by decide)
  simp only [setReadmodeSteps, inDomain_cons, always_act, Act.inDomain, e, hle, decide_true, inDomain_nil, and_self]

theorem setIrqenSteps_inDomain (c : Chan) (d : Word) : InDomain (setIrqenSteps c d) := by
  unfold setIrqenSteps setIenSteps
  split <;> simp [ienOnSteps, ienOffSteps, Act.inDomain]

theorem armSteps_inDomain : InDomain armSteps := by
  simp [armSteps, armRefSteps, armSlaveSteps, armOutputSteps, armEnableSteps, ienOnSteps, Act.inDomain]

/-- `max(DATA, 25)` is at least 25 (R161). -/
theorem clampOffset_ge (d : Word) : 25 ≤ (clampOffset d).toNat := by
  unfold clampOffset
  split
  · decide
  · next h => simpa [ptMin, BitVec.lt_def] using h

theorem initChanSteps_inDomain {c : Chan} {g : CfgChan} (h : cfgChanOk g = true) : InDomain (initChanSteps c g) := by
  simp only [cfgChanOk, Bool.and_eq_true, and_assoc] at h
  obtain ⟨hmode, hldc, hclc, hstc, -, -, hcmpirq, -, -, -, hrdmode, -⟩ := h
  simp [initChanSteps, setModeSteps_inDomain hmode, setLoadSteps_inDomain hldc, setClearSteps_inDomain hclc,
    setStoreSteps_inDomain hstc, setCompirqSteps_inDomain hcmpirq, setReadmodeSteps_inDomain hrdmode, setTstartSteps,
    setCompaSteps, setCompbSteps, setCbirqSteps, setLbirqSteps, setXirqSteps, setReadtoutSteps, setWritemodeSteps,
    rewriteCctl, rewriteIctl, Act.inDomain]

theorem initSteps_inDomain {p : CfgPort} (h : cfgOk p = true) : InDomain (initSteps p) := by
  simp only [cfgOk, Bool.and_eq_true, and_assoc] at h
  obtain ⟨ha, hb, hc, hd, -⟩ := h
  simp [initSteps, initChanSteps_inDomain ha, initChanSteps_inDomain hb, initChanSteps_inDomain hc,
    initChanSteps_inDomain hd, setOutmodeSteps, setOutsetSteps, setIrqenSteps_inDomain, Act.inDomain]

/-- A command with an operand in range stores values of their domains only (R87, R206, R221). -/
theorem microSteps_inDomain {i : Instr} {p : CfgPort} (hw : i.wellFormed = true)
    (hc : i = .init → cfgOk p = true) : InDomain (microSteps p i) := by
  cases i with
  | setMode c d => simp [microSteps, setModeSteps_inDomain (d := d) hw, Act.inDomain]
  | setLoad c d => simp [microSteps, setLoadSteps_inDomain (d := d) hw, Act.inDomain]
  | setClear c d => simp [microSteps, setClearSteps_inDomain (d := d) hw, Act.inDomain]
  | setStore c d => simp [microSteps, setStoreSteps_inDomain (d := d) hw, Act.inDomain]
  | setReadmode c d => simp [microSteps, setReadmodeSteps_inDomain (d := d) hw, Act.inDomain]
  | setCompirq c d => simp [microSteps, setCompirqSteps_inDomain (d := d) hw, Act.inDomain]
  | setIrqen c d => simp [microSteps, setIrqenSteps_inDomain, Act.inDomain]
  | setPten d => simp [microSteps, armSteps_inDomain, Act.inDomain]
  | setPtofs d => simp [microSteps, clampOffset_ge, Act.inDomain]
  | init => simp [microSteps, initSteps_inDomain (hc rfl), Act.inDomain]
  | exit => simp [microSteps, exitSteps, exitChanSteps, Act.inDomain]
  | siginst c k d | sigrem c k =>
    simp only [microSteps]
    cases kindOfField k <;> simp [Act.inDomain]
  | _ =>
    simp [microSteps, setTstartSteps, setCompaSteps, setCompbSteps, setReadtoutSteps, setWritemodeSteps,
      setCbirqSteps, setLbirqSteps, setXirqSteps, setOutmodeSteps, setOutsetSteps, setSelftestSteps, writeSteps,
      readSteps, rewriteCctl, rewriteIctl, Act.inDomain]

theorem domains_stepKept : StepKept (Carries DomainsHold Act.inDomain) where
  toKept := domains_keptByActs.kept
  issue _ h := domains_keptByActs.carries_same h rfl rfl rfl rfl rfl
  raise _ _ h := domains_keptByActs.carries_same h rfl rfl rfl rfl rfl
  begin _ h _ hw hc := ⟨⟨h.here.records, h.here.offset⟩, microSteps_inDomain hw hc, h.handler⟩

/-- Settles O54: every action in progress stores values of their domains, and so does every command that begins. -/
theorem stepKeepsDomains : Obligations.StepKeepsDomains := by
  unfold Obligations.StepKeepsDomains
  intro s t hs h
  rw [domainInv_iff] at hs ⊢
  exact domains_stepKept.step hs h

/-! ## The contexts (R34, R241, R243) -/

/-- The handler's list ends with h11 and nothing else does (R241). -/
theorem eq_hEnd_of_suffix {m : Micro} (h : [m] <:+ handlerSteps) : m = Act.hEnd.always := by
  obtain ⟨before, e⟩ := h
  have last : handlerSteps.getLast? = some Act.hEnd.always := rfl
  rw [← e] at last
  simpa using last

/-- Only the handler's own micro-steps end its list. -/
theorem handlerSteps_ends : ∀ m ∈ handlerSteps, m.act.ends = true → m.act.handlerOnly = true := by decide

theorem contexts_handler {m : Micro} {rest : List Micro} {s t : State}
    (hj : (s.setPosition .irq (m :: rest)).ContextInv) (h : takeMicro .irq m rest s = .next t) : t.ContextInv := by
  obtain ⟨hplace, hinside, hsep⟩ := id hj
  have hm : m ∈ handlerSteps := hplace.subset (List.mem_cons_self ..)
  have hinh : s.inh = true := hinside.mpr (List.cons_ne_nil m rest)
  obtain ⟨u, hu, rfl⟩ | ⟨u, hu, rfl⟩ | ⟨-, rfl⟩ := takeMicro_cases h
  · obtain ⟨eprog, -, einh, -⟩ := Micro.run_place hu
    have more : rest ≠ [] := by
      rintro rfl
      rw [eq_hEnd_of_suffix hplace] at hu
      cases hu
    exact ⟨(List.suffix_cons m rest).trans hplace, by simpa [einh, hinh] using more, by simpa [eprog] using hsep⟩
  · obtain ⟨hends, honly, -⟩ | ⟨-, -, result, rfl⟩ := Act.run_ended (Micro.run_ended hu)
    · rw [handlerSteps_ends m hm hends] at honly
      cases honly
    · exact ⟨List.nil_suffix, by simp, hsep⟩
  · exact hj

theorem contexts_command {m : Micro} {rest : List Micro} {s t : State}
    (hj : (s.setPosition .host (m :: rest)).ContextInv) (h : takeMicro .host m rest s = .next t) : t.ContextInv := by
  obtain ⟨hplace, hinside, hsep⟩ := id hj
  obtain ⟨hm, hrest⟩ := List.forall_mem_cons.mp hsep
  obtain ⟨u, hu, rfl⟩ | ⟨u, hu, rfl⟩ | ⟨-, rfl⟩ := takeMicro_cases h
  · obtain ⟨-, ehprog, einh, -⟩ := Micro.run_place hu
    exact ⟨by simpa [ehprog] using hplace, by simpa [ehprog, einh] using hinside, hrest⟩
  · obtain ⟨-, -, code, v, rfl⟩ | ⟨-, honly, -⟩ := Act.run_ended (Micro.run_ended hu)
    · exact ⟨hplace, hinside, by simp⟩
    · rw [hm] at honly
      cases honly
  · exact hj

/-- The contexts are about the places of the two agents and `inh`. -/
theorem State.ContextInv.of_same {s t : State} (h : s.ContextInv) (hp : t.prog = s.prog) (hq : t.hprog = s.hprog)
    (hi : t.inh = s.inh) : t.ContextInv :=
  ⟨by rw [hq]; exact h.place, by rw [hq, hi]; exact h.inside, by rw [hp]; exact h.separate⟩

theorem coreStep_inh (e : CoreEvent) (s : State) : (coreStep e s).inh = s.inh := by
  obtain h | ⟨c, n, l, p, g, h, -⟩ := coreStep_cases e s
  · rw [h]
  · rw [h]; rfl

theorem contexts_kept : Kept State.ContextInv where
  handler := contexts_handler
  command _ := contexts_command
  core {s} e h := by
    obtain ⟨-, -, -, hp, hq⟩ := coreStep_same e s
    exact h.of_same hp hq (coreStep_inh e s)
  irq {s} h := by
    obtain ⟨-, e⟩ | ⟨-, -, e⟩ | ⟨-, -, e⟩ := irqStep_cases s <;> rw [e]
    · exact h
    · exact ⟨List.suffix_rfl, by simp [handlerSteps], h.separate⟩
    · exact h.of_same rfl rfl rfl
  timeout {s} h := by
    obtain e | ⟨g, c, rest, -, -, -, -, e⟩ := timeoutStep_cases s <;> rw [e]
    · exact h
    · exact ⟨h.place, h.inside, by simp⟩
  present _ h := h.of_same rfl rfl rfl
  script _ h := h.of_same rfl rfl rfl

theorem contexts_stepKept : StepKept State.ContextInv where
  toKept := contexts_kept
  issue _ h := h.of_same rfl rfl rfl
  raise _ _ h := h.of_same rfl rfl rfl
  begin _ h _ _ _ := ⟨h.place, h.inside, fun _ hm => microSteps_separate hm⟩

/-- Settles O55: the handler's place moves down its own list, which only h6 and h11 end. -/
theorem stepKeepsContexts : Obligations.StepKeepsContexts := by
  unfold Obligations.StepKeepsContexts
  intro s t hs h
  exact contexts_stepKept.step hs h

end Sys2Proof.Machine

/-!
PROOFS. Shadow and hardware agree whenever the block is idle (O56). Between two micro-steps a part of the block may be
out of step with its mirror; the invariant says that a micro-step still to come puts it right.
-/

namespace Sys2Proof.Machine

/-! ## The parts of the block that R44 speaks of -/

/-- A part of the block that is in order whenever the block is idle and live: a register that has a mirror, the shadow
of a channel, the domains, the mask. -/
inductive Facet where
  | register (r : Reg)
  | shadow (c : Chan)
  | domains
  | unmasked

/-- The registers with a mirror in CTL (R29, R44). -/
def hasMirror : Reg → Bool
  | .cntctl _ | .cmpaLo _ | .cmpaHi _ | .cmpbLo _ | .cmpbHi _ | .intctl _ | .outctl0 | .outctl1 | .outcfg
  | .selftest => true
  | .preLo _ | .preHi _ | .cntLo _ | .cntHi _ | .pend0 | .pend1 => false

/-- A register holds what its mirror in CTL says, if it has one (R21, R25, R29). -/
def RegMirrored (r : Reg) (s : State) : Prop :=
  match r with
  | .cntctl c => (s.hw.get c).cntctl = cctlWord s.par.cctl (s.ch.get c)
  | .intctl c => (s.hw.get c).intctl = ictlWord s.par.ictl (s.ch.get c)
  | .cmpaLo c => (s.hw.get c).cmpaLo = lo16 (s.ch.get c).cmpA
  | .cmpaHi c => (s.hw.get c).cmpaHi = hi16 (s.ch.get c).cmpA
  | .cmpbLo c => (s.hw.get c).cmpbLo = lo16 (s.ch.get c).cmpB
  | .cmpbHi c => (s.hw.get c).cmpbHi = hi16 (s.ch.get c).cmpB
  | .outctl0 => s.outctl0 = s.octl0
  | .outctl1 => s.outctl1 = s.octl1
  | .outcfg => s.outcfg = s.ocfg
  | .selftest => s.selftest = s.stest
  | .preLo _ | .preHi _ | .cntLo _ | .cntHi _ | .pend0 | .pend1 => True

/-- "ien = 0 implies pss = 0" (R26). -/
def ShadowHolds (c : Chan) (s : State) : Prop := (s.ch.get c).ien = false → (s.ch.get c).pss = 0

/-- The part is in order. -/
def Facet.Holds (k : Facet) (s : State) : Prop :=
  match k with
  | .register r => RegMirrored r s
  | .shadow c => ShadowHolds c s
  | .domains => DomainsHold s
  | .unmasked => s.imask = false

/-- The facets together are the invariants of R44. -/
theorem mirrored_iff_facets (s : State) : (∀ k : Facet, k.Holds s) ↔ s.Mirrored ∧ s.imask = false := by
  constructor
  · intro h
    have halves : ∀ {l h : Reg16} {v : Word}, l = lo16 v → h = hi16 v → compose l h = v := by
      rintro _ _ v rfl rfl
      exact compose_halves v
    have reg := fun r => h (.register r)
    exact ⟨⟨fun c => ⟨reg (.cntctl c), reg (.intctl c), halves (reg (.cmpaLo c)) (reg (.cmpaHi c)),
      halves (reg (.cmpbLo c)) (reg (.cmpbHi c)), h (.shadow c)⟩, (h .domains).records, reg .outctl0, reg .outctl1,
      reg .outcfg, reg .selftest, (h .domains).offset⟩, h .unmasked⟩
  · rintro ⟨h, hm⟩ k
    cases k with
    | domains => exact ⟨h.domains, h.offset⟩
    | unmasked => exact hm
    | shadow c => exact (h.chans c).shadow
    | register r =>
      cases r with
      | cntctl c => exact (h.chans c).cctl
      | intctl c => exact (h.chans c).ictl
      | cmpaLo c | cmpaHi c => simp [Facet.Holds, RegMirrored, ← (h.chans c).cmpA]
      | cmpbLo c | cmpbHi c => simp [Facet.Holds, RegMirrored, ← (h.chans c).cmpB]
      | outctl0 => exact h.outctl0
      | outctl1 => exact h.outctl1
      | outcfg => exact h.outcfg
      | selftest => exact h.selftest
      | _ => trivial

/-- A register and its mirror are not the places, the locals, the ports, the flags and the environment. -/
theorem RegMirrored.of_eq {r : Reg} {s t : State} (h : RegMirrored r s)
    (e : t = { s with
      irqcnt := t.irqcnt, ptofs := t.ptofs, pten := t.pten, ptarmed := t.ptarmed, live := t.live, imask := t.imask,
      inh := t.inh, evs := t.evs, status := t.status, rdata := t.rdata, hport := t.hport, cfg := t.cfg,
      prog := t.prog, loc := t.loc, hprog := t.hprog, hloc := t.hloc, inbox := t.inbox, script := t.script,
      draws := t.draws }) : RegMirrored r t := by
  rw [e]
  cases r <;> exact h

/-- A facet does not look at the places, the locals, the ports, `live` and the environment. -/
theorem Facet.Holds.of_eq {k : Facet} {s t : State} (h : k.Holds s)
    (e : t = { s with
      irqcnt := t.irqcnt, pten := t.pten, ptarmed := t.ptarmed, live := t.live, inh := t.inh, evs := t.evs,
      status := t.status, rdata := t.rdata, hport := t.hport, cfg := t.cfg, prog := t.prog, loc := t.loc,
      hprog := t.hprog, hloc := t.hloc, inbox := t.inbox, script := t.script, draws := t.draws }) : k.Holds t := by
  rw [e]
  cases k with
  | register r => exact RegMirrored.of_eq h rfl
  | domains => exact ⟨h.records, h.offset⟩
  | shadow c => exact h
  | unmasked => exact h

/-! ## What an action leaves in order -/

section
variable {r : Reg} {s t : State} {c : Chan}

/-- A change of a record that the mirror of `r` does not show. -/
theorem RegMirrored.modRec {f : ChanRec → ChanRec} (h : RegMirrored r s)
    (hc : r = .cntctl c → ∀ l x, cctlWord l (f x) = cctlWord l x)
    (hi : r = .intctl c → ∀ l x, ictlWord l (f x) = ictlWord l x)
    (ha : r = .cmpaLo c ∨ r = .cmpaHi c → ∀ x, (f x).cmpA = x.cmpA)
    (hb : r = .cmpbLo c ∨ r = .cmpbHi c → ∀ x, (f x).cmpB = x.cmpB) : RegMirrored r (s.modRec c f) := by
  cases r with
  | cntctl d =>
    simp only [RegMirrored, modRec_get, modRec_hw, modRec_par] at h ⊢
    split
    · next e => subst e; rw [hc rfl]; exact h
    · exact h
  | intctl d =>
    simp only [RegMirrored, modRec_get, modRec_hw, modRec_par] at h ⊢
    split
    · next e => subst e; rw [hi rfl]; exact h
    · exact h
  | cmpaLo d | cmpaHi d =>
    simp only [RegMirrored, modRec_get, modRec_hw] at h ⊢
    split
    · next e => subst e; rw [ha (by simp)]; exact h
    · exact h
  | cmpbLo d | cmpbHi d =>
    simp only [RegMirrored, modRec_get, modRec_hw] at h ⊢
    split
    · next e => subst e; rw [hb (by simp)]; exact h
    · exact h
  | _ => exact h

/-- A change of the hardware of a channel that leaves the contents of `r`. -/
theorem RegMirrored.modHw {f : HwChan → HwChan} (h : RegMirrored r s)
    (hc : r = .cntctl c → ∀ x, (f x).cntctl = x.cntctl) (hi : r = .intctl c → ∀ x, (f x).intctl = x.intctl)
    (hal : r = .cmpaLo c → ∀ x, (f x).cmpaLo = x.cmpaLo) (hah : r = .cmpaHi c → ∀ x, (f x).cmpaHi = x.cmpaHi)
    (hbl : r = .cmpbLo c → ∀ x, (f x).cmpbLo = x.cmpbLo) (hbh : r = .cmpbHi c → ∀ x, (f x).cmpbHi = x.cmpbHi) :
    RegMirrored r (s.modHw c f) := by
  cases r with
  | cntctl d =>
    simp only [RegMirrored, modHw_get, modHw_ch, modHw_par] at h ⊢
    split
    · next e => subst e; rw [hc rfl]; exact h
    · exact h
  | intctl d =>
    simp only [RegMirrored, modHw_get, modHw_ch, modHw_par] at h ⊢
    split
    · next e => subst e; rw [hi rfl]; exact h
    · exact h
  | cmpaLo d =>
    simp only [RegMirrored, modHw_get, modHw_ch] at h ⊢
    split
    · next e => subst e; rw [hal rfl]; exact h
    · exact h
  | cmpaHi d =>
    simp only [RegMirrored, modHw_get, modHw_ch] at h ⊢
    split
    · next e => subst e; rw [hah rfl]; exact h
    · exact h
  | cmpbLo d =>
    simp only [RegMirrored, modHw_get, modHw_ch] at h ⊢
    split
    · next e => subst e; rw [hbl rfl]; exact h
    · exact h
  | cmpbHi d =>
    simp only [RegMirrored, modHw_get, modHw_ch] at h ⊢
    split
    · next e => subst e; rw [hbh rfl]; exact h
    · exact h
  | _ => exact h

/-- A record field that no register shows. -/
theorem RegMirrored.modRec_hidden {f : ChanRec → ChanRec} (h : RegMirrored r s)
    (hf : ∀ x, f x = { x with
      pss := (f x).pss, rdmode := (f x).rdmode, rdtout := (f x).rdtout, wrmode := (f x).wrmode, sig := (f x).sig,
      rsem := (f x).rsem }) : RegMirrored r (s.modRec c f) :=
  h.modRec (fun _ l x => by rw [hf x]; rfl) (fun _ l x => by rw [hf x]; rfl) (fun _ x => by rw [hf x])
    (fun _ x => by rw [hf x])

/-- Count, latch, gate and flags are no registers with a mirror. -/
theorem RegMirrored.modHw_hidden {f : HwChan → HwChan} (h : RegMirrored r s)
    (hf : ∀ x, f x = { x with cnt := (f x).cnt, lat := (f x).lat, tb := (f x).tb, pend := (f x).pend,
                              preLo := (f x).preLo, preHi := (f x).preHi }) : RegMirrored r (s.modHw c f) :=
  h.modHw (fun _ x => by rw [hf x]) (fun _ x => by rw [hf x]) (fun _ x => by rw [hf x]) (fun _ x => by rw [hf x])
    (fun _ x => by rw [hf x]) (fun _ x => by rw [hf x])

/-- A write of another register, or of one without a mirror. -/
theorem RegMirrored.writeReg {q : Reg} {v : Reg16} (h : RegMirrored r s) (hq : (r == q && hasMirror q) = false)
    (hw : writeReg q v s = .ok t) : RegMirrored r t := by
  have other : hasMirror q = true → r ≠ q := fun hm e => by simp [e, hm] at hq
  cases q with
  | cntctl c =>
    obtain e | ⟨n, l, tb, e⟩ := writeCntctl_cases hw
    · cases e
    · obtain rfl := Except.ok.inj e
      exact h.modHw (fun e => absurd e (other rfl)) (fun _ _ => rfl) (fun _ _ => rfl) (fun _ _ => rfl)
        (fun _ _ => rfl) (fun _ _ => rfl)
  | intctl c =>
    obtain rfl := Except.ok.inj hw
    exact h.modHw (fun _ _ => rfl) (fun e => absurd e (other rfl)) (fun _ _ => rfl) (fun _ _ => rfl)
      (fun _ _ => rfl) (fun _ _ => rfl)
  | cmpaLo c =>
    obtain rfl := Except.ok.inj hw
    exact h.modHw (fun _ _ => rfl) (fun _ _ => rfl) (fun e => absurd e (other rfl)) (fun _ _ => rfl)
      (fun _ _ => rfl) (fun _ _ => rfl)
  | cmpaHi c =>
    obtain rfl := Except.ok.inj hw
    exact h.modHw (fun _ _ => rfl) (fun _ _ => rfl) (fun _ _ => rfl) (fun e => absurd e (other rfl))
      (fun _ _ => rfl) (fun _ _ => rfl)
  | cmpbLo c =>
    obtain rfl := Except.ok.inj hw
    exact h.modHw (fun _ _ => rfl) (fun _ _ => rfl) (fun _ _ => rfl) (fun _ _ => rfl)
      (fun e => absurd e (other rfl)) (fun _ _ => rfl)
  | cmpbHi c =>
    obtain rfl := Except.ok.inj hw
    exact h.modHw (fun _ _ => rfl) (fun _ _ => rfl) (fun _ _ => rfl) (fun _ _ => rfl) (fun _ _ => rfl)
      (fun e => absurd e (other rfl))
  | preLo c | preHi c => obtain rfl := Except.ok.inj hw; exact h.modHw_hidden fun _ => rfl
  | pend0 | pend1 =>
    obtain rfl := Except.ok.inj hw
    exact RegMirrored.modHw_hidden (h.modHw_hidden fun _ => rfl) fun _ => rfl
  | outctl0 =>
    obtain rfl := Except.ok.inj hw
    cases r with
    | outctl0 => exact absurd rfl (other rfl)
    | _ => exact h
  | outctl1 =>
    obtain rfl := Except.ok.inj hw
    cases r with
    | outctl1 => exact absurd rfl (other rfl)
    | _ => exact h
  | outcfg =>
    obtain rfl := Except.ok.inj hw
    cases r with
    | outcfg => exact absurd rfl (other rfl)
    | _ => exact h
  | selftest =>
    obtain rfl := Except.ok.inj hw
    cases r with
    | selftest => exact absurd rfl (other rfl)
    | _ => exact h
  | cntLo c | cntHi c => cases hw

end

/-- The registers whose contents, or whose mirror, the action changes. -/
def Act.dirties (a : Act) (r : Reg) : Bool :=
  match a with
  | .setMode c _ | .setLdc c _ | .setClc c _ | .setStc c _ | .setTst c _ | .armSlave c => r == .cntctl c
  | .armRef => r == .cntctl .chA
  | .setCmpA c _ => r == .cmpaLo c || r == .cmpaHi c
  | .setCmpB c _ => r == .cmpbLo c || r == .cmpbHi c
  | .setCmpirq c _ | .setCbirq c _ | .setLben c _ | .setXen c _ | .ienOn c | .ienOff c | .armMask c => r == .intctl c
  | .setOctl0 _ | .armOctl0 => r == .outctl0
  | .setOctl1 _ | .armOctl1 => r == .outctl1
  | .setOcfg _ | .orOcfg => r == .outcfg
  | .setStest _ => r == .selftest
  | .write q _ => r == q && hasMirror q
  | .zeroCtl | .goDown => hasMirror r
  | _ => false

/-- `ien <- 0` of the channel, without `pss <- 0` (R140). -/
def Act.disables (a : Act) (c : Chan) : Bool :=
  match a with
  | .ienOff d => c == d
  | _ => false

/-- The opening of a masked section (R66). -/
def Act.opensMask : Act → Bool
  | .maskOpen => true
  | _ => false

/-- The action can put this part of the block out of order; the domains are safe while it stores a value of its
field's domain. -/
def Act.disturbs (a : Act) (k : Facet) : Bool :=
  match k with
  | .register r => a.dirties r
  | .shadow c => a.disables c
  | .domains => false
  | .unmasked => a.opensMask

theorem memWrite_mirrored {r q : Reg} {v : Reg16} {s t : State} (hwf : s.par.Wf) (h : RegMirrored r s)
    (hq : (r == q && hasMirror q) = false) (hw : memWrite (s.par.regmap.offset q) 2 v s = .ok t) :
    RegMirrored r t := by
  rw [memWrite_offset hwf] at hw
  exact h.writeReg hq hw

theorem memRead_mirrored {r : Reg} {addr size : Nat} {v : Reg16} {s t : State} (h : RegMirrored r s)
    (hr : memRead addr size s = .ok (v, t)) : RegMirrored r t := by
  obtain ⟨q, -, hq⟩ := memRead_ok hr
  exact h.of_eq (by rw [readReg_ok_frame hq])

theorem foldAll_mirrored {r : Reg} {s : State} (h : RegMirrored r s) : RegMirrored r (foldAll s) := by
  refine List.foldlRecOn Chan.all foldChan h fun t ht c _ => ?_
  obtain ⟨-, e⟩ | ⟨-, e⟩ := foldChan_cases t c <;> rw [e]
  · exact ht.modRec_hidden fun _ => rfl
  · exact (ht.modRec_hidden (c := c) (f := fun x => { x with pss := 0 }) fun _ => rfl).of_eq rfl

theorem signalAll_mirrored {r : Reg} {s : State} (h : RegMirrored r s) : RegMirrored r (signalAll s) := by
  refine List.foldlRecOn Chan.all signalChan h fun t ht c _ => ?_
  obtain e | e := signalChan_cases t c <;> rw [e]
  · exact ht
  · exact (ht.modRec_hidden (c := c) (f := fun x => { x with rsem := true }) fun _ => rfl).of_eq rfl

/-- An action that does not dirty a register leaves it in agreement with its mirror. -/
theorem RegMirrored.run {r : Reg} {a : Act} {s t : State} (hwf : s.par.Wf) (ha : a.dirties r = false)
    (hs : RegMirrored r s) (h : a.run s = .cont t) : RegMirrored r t := by
  have ne : ∀ {q : Reg}, (r == q) = false → r = q → False := fun h e => by simp [e] at h
  have ne₂ : ∀ {q q' : Reg}, (r == q || r == q') = false → r = q ∨ r = q' → False := fun h e => by
    simp only [Bool.or_eq_false_iff] at h
    exact e.elim (ne h.1) (ne h.2)
  cases a with
  | setMode | setLdc | setClc | setStc | setTst | armSlave | armRef =>
    cases h
    exact hs.modRec (fun e => (ne ha e).elim) (fun _ _ _ => rfl) (fun _ _ => rfl) (fun _ _ => rfl)
  | setCmpirq | setCbirq | setLben | setXen | ienOn | ienOff | armMask =>
    cases h
    exact hs.modRec (fun _ _ _ => rfl) (fun e => (ne ha e).elim) (fun _ _ => rfl) (fun _ _ => rfl)
  | setCmpA =>
    cases h
    exact hs.modRec (fun _ _ _ => rfl) (fun _ _ _ => rfl) (fun e => (ne₂ ha e).elim) (fun _ _ => rfl)
  | setCmpB =>
    cases h
    exact hs.modRec (fun _ _ _ => rfl) (fun _ _ _ => rfl) (fun _ _ => rfl) (fun e => (ne₂ ha e).elim)
  | setRdmode | setRdtout | setWrmode | setSig | pssZero => cases h; exact hs.modRec_hidden fun _ => rfl
  | setOctl0 | armOctl0 =>
    cases h
    cases r with
    | outctl0 => cases ha
    | _ => exact hs
  | setOctl1 | armOctl1 =>
    cases h
    cases r with
    | outctl1 => cases ha
    | _ => exact hs
  | setOcfg | orOcfg =>
    cases h
    cases r with
    | outcfg => cases ha
    | _ => exact hs
  | setStest =>
    cases h
    cases r with
    | selftest => cases ha
    | _ => exact hs
  | zeroCtl | goDown =>
    cases h
    cases r with
    | preLo | preHi | cntLo | cntHi | pend0 | pend1 => trivial
    | _ => cases ha
  | write q src =>
    exact (Flow.onCont_ofWrite (P := RegMirrored r) fun u hu => memWrite_mirrored hwf hs ha hu).apply h
  | readLo | readHi | hPend0 | hPend1 | hCntLo | hCntHi =>
    exact (Flow.onCont_ofRead (P := RegMirrored r) fun v u hu => (memRead_mirrored hs hu).of_eq rfl).apply h
  | await c =>
    simp only [Act.run] at h
    split at h
    · cases h; exact hs.modRec_hidden fun _ => rfl
    · split at h <;> cases h
  | statQuery c =>
    simp only [Act.run] at h
    split at h
    · cases h; exact hs.of_eq rfl
    · exact (Flow.onCont_ofRead (P := RegMirrored r) fun v u hu => (memRead_mirrored hs hu).of_eq rfl).apply h
  | statClear c mask =>
    have free : (r == pendReg c && hasMirror (pendReg c)) = false := by cases c <;> simp [pendReg, hasMirror]
    simp only [Act.run] at h
    split at h
    · cases h; exact hs.modRec_hidden fun _ => rfl
    · exact (Flow.onCont_ofWrite (P := RegMirrored r) fun u hu => memWrite_mirrored hwf hs free hu).apply h
  | hFold => cases h; exact foldAll_mirrored hs
  | hSem => cases h; exact signalAll_mirrored hs
  | hNotify =>
    cases h
    obtain ⟨es, e⟩ := notifyAll_cases s
    rw [e]
    exact hs.of_eq rfl
  | hOwn =>
    simp only [Act.run] at h
    split at h
    · cases h
    · cases h; exact hs
  | ret | hEnd => cases h
  | _ => cases h; exact hs.of_eq rfl

/-! ### The shadow -/

section
variable {s t : State} {c d : Chan}

/-- A record change that, on its own channel, keeps "ien = 0 implies pss = 0". -/
theorem ShadowHolds.modRec {f : ChanRec → ChanRec} (h : ShadowHolds c s)
    (hf : c = d → ∀ x, (x.ien = false → x.pss = 0) → (f x).ien = false → (f x).pss = 0) :
    ShadowHolds c (s.modRec d f) := by
  simp only [ShadowHolds, modRec_get] at h ⊢
  split
  · next e => exact hf e _ h
  · exact h

theorem ShadowHolds.of_ch (h : ShadowHolds c s) (e : t.ch = s.ch) : ShadowHolds c t := by
  rw [ShadowHolds, e]
  exact h

theorem foldAll_shadow (h : ShadowHolds c s) : ShadowHolds c (foldAll s) := by
  refine List.foldlRecOn Chan.all foldChan h fun t ht d _ => ?_
  obtain ⟨hi, e⟩ | ⟨-, e⟩ := foldChan_cases t d <;> rw [e]
  · simp only [ShadowHolds, modRec_get] at ht ⊢
    split
    · next e => subst e; intro hn; rw [hi] at hn; cases hn
    · exact ht
  · exact (ht.modRec (d := d) (f := fun x => { x with pss := 0 }) fun _ _ _ _ => rfl).of_ch rfl

theorem signalAll_shadow (h : ShadowHolds c s) : ShadowHolds c (signalAll s) := by
  refine List.foldlRecOn Chan.all signalChan h fun t ht d _ => ?_
  obtain e | e := signalChan_cases t d <;> rw [e]
  · exact ht
  · exact (ht.modRec (d := d) (f := fun x => { x with rsem := true }) fun _ _ hx => hx).of_ch rfl

theorem memWrite_ch {addr size : Nat} {v : Reg16} (h : memWrite addr size v s = .ok t) : t.ch = s.ch := by
  obtain ⟨r, -, hr⟩ := memWrite_ok h
  rw [writeReg_ok_frame hr]

theorem memRead_ch {addr size : Nat} {v : Reg16} (h : memRead addr size s = .ok (v, t)) : t.ch = s.ch := by
  obtain ⟨r, -, hr⟩ := memRead_ok h
  rw [readReg_ok_frame hr]

/-- A register read whose value is put into a local. -/
theorem ShadowHolds.ofRead {addr size : Nat} {store : Reg16 → State → State} (hs : ShadowHolds c s)
    (h : Flow.ofRead store (memRead addr size s) = .cont t) (k : ∀ v u, (store v u).ch = u.ch) : ShadowHolds c t := by
  have all : (Flow.ofRead store (memRead addr size s)).OnCont (ShadowHolds c) :=
    Flow.onCont_ofRead fun v u hu => hs.of_ch ((k v u).trans (memRead_ch hu))
  exact all.apply h

/-- Only `ien <- 0` can leave a shadow of a disabled channel (R26, R140). -/
theorem ShadowHolds.run {a : Act} (ha : a.disables c = false) (hs : ShadowHolds c s) (h : a.run s = .cont t) :
    ShadowHolds c t := by
  cases a with
  | setMode | setLdc | setClc | setStc | setTst | setCmpA | setCmpB | setRdmode | setRdtout | setWrmode | setCmpirq
  | setCbirq | setLben | setXen | setSig | armRef | armSlave => cases h; exact hs.modRec fun _ _ hx => hx
  | ienOn => cases h; exact hs.modRec fun _ _ _ hn => by cases hn
  | pssZero | armMask => cases h; exact hs.modRec fun _ _ _ _ => rfl
  | ienOff d => cases h; exact hs.modRec fun e => absurd e (by simpa [Act.disables] using ha)
  | zeroCtl | goDown =>
    cases h
    intro _
    rw [zeroCtl_ch, Quad.get_fill]
    rfl
  | write r src => exact (Flow.onCont_ofWrite (P := ShadowHolds c) fun u hu => hs.of_ch (memWrite_ch hu)).apply h
  | readLo | readHi | hPend0 | hPend1 | hCntLo | hCntHi =>
    exact hs.ofRead h fun _ _ => rfl
  | await d =>
    simp only [Act.run] at h
    split at h
    · cases h; exact hs.modRec fun _ _ hx => hx
    · split at h <;> cases h
  | statQuery d =>
    simp only [Act.run] at h
    split at h
    · cases h; exact hs
    · exact hs.ofRead h fun _ _ => rfl
  | statClear d mask =>
    simp only [Act.run] at h
    split at h
    · cases h; exact hs.modRec fun _ x hx hn => by simp [hx hn]
    · exact (Flow.onCont_ofWrite (P := ShadowHolds c) fun u hu => hs.of_ch (memWrite_ch hu)).apply h
  | hFold => cases h; exact foldAll_shadow hs
  | hSem => cases h; exact signalAll_shadow hs
  | hNotify =>
    cases h
    obtain ⟨es, e⟩ := notifyAll_cases s
    rw [e]
    exact hs
  | hOwn =>
    simp only [Act.run] at h
    split at h
    · cases h
    · cases h; exact hs
  | ret | hEnd => cases h
  | _ => cases h; exact hs

/-- Only the opening of a masked section sets `imask` (R66). -/
theorem imask_run {a : Act} (ha : a.opensMask = false) (hs : s.imask = false) (h : a.run s = .cont t) :
    t.imask = false := by
  cases a with
  | write | await | readLo | readHi | statQuery | statClear | hPend0 | hPend1 | hFold | hCntLo | hCntHi | hSem
  | hNotify | hOwn | pssZero => exact ((Act.run_minor rfl s).apply h).imask.trans hs
  | maskOpen => cases ha
  | maskClose => cases h; rfl
  | ret | hEnd => cases h
  | _ => cases h; exact hs

end

/-- An action that does not disturb a part of the block leaves it in order. -/
theorem Facet.Holds.run {k : Facet} {a : Act} {s t : State} (hwf : s.par.Wf) (hd : a.inDomain = true)
    (ha : a.disturbs k = false) (hs : k.Holds s) (h : a.run s = .cont t) : k.Holds t := by
  cases k with
  | register r => exact RegMirrored.run hwf ha hs h
  | shadow c => exact ShadowHolds.run ha hs h
  | domains => exact DomainsHold.run hd hs h
  | unmasked => exact imask_run ha hs h

end Sys2Proof.Machine

/-!
PROOFS. What it means that a list of micro-steps leaves a part of the block in order while the other agent and the CORE
act between them (`Restores`, `Settles`, `Keeps`), and the rules by which such lists are put together (for O56).
-/

namespace Sys2Proof.Machine

/-! ## What a list of micro-steps goes by -/

/-- Nothing changed that a list of a command goes by: the locals its conditions read, `wrmode`, and the mirrors whose
value it writes as a constant. -/
structure SameGrounds (s t : State) : Prop where
  readMode : t.loc.m = s.loc.m
  arm : t.loc.arm = s.loc.arm
  stest : t.stest = s.stest
  wrmode : ∀ c, (t.ch.get c).wrmode = (s.ch.get c).wrmode
  cmpA : ∀ c, (t.ch.get c).cmpA = (s.ch.get c).cmpA
  cmpB : ∀ c, (t.ch.get c).cmpB = (s.ch.get c).cmpB

/-- Nothing changed that the handler's list goes by. -/
def SameHandler (s t : State) : Prop := t.hloc = s.hloc

theorem SameGrounds.of_eq {s t : State} (hm : t.loc.m = s.loc.m) (ha : t.loc.arm = s.loc.arm)
    (hs : t.stest = s.stest) (hc : t.ch = s.ch) : SameGrounds s t :=
  ⟨hm, ha, hs, fun _ => by rw [hc], fun _ => by rw [hc], fun _ => by rw [hc]⟩

theorem SameGrounds.refl (s : State) : SameGrounds s s := .of_eq rfl rfl rfl rfl

theorem SameGrounds.trans {s t u : State} (h : SameGrounds s t) (k : SameGrounds t u) : SameGrounds s u :=
  ⟨k.readMode.trans h.readMode, k.arm.trans h.arm, k.stest.trans h.stest, fun c => (k.wrmode c).trans (h.wrmode c),
    fun c => (k.cmpA c).trans (h.cmpA c), fun c => (k.cmpB c).trans (h.cmpB c)⟩

theorem SameHandler.trans {s t u : State} (h : SameHandler s t) (k : SameHandler t u) : SameHandler s u :=
  Eq.trans k h

theorem SameGrounds.modRec {s : State} {c : Chan} {f : ChanRec → ChanRec} (hw : ∀ x, (f x).wrmode = x.wrmode)
    (ha : ∀ x, (f x).cmpA = x.cmpA) (hb : ∀ x, (f x).cmpB = x.cmpB) : SameGrounds s (s.modRec c f) := by
  refine ⟨rfl, rfl, rfl, fun d => ?_, fun d => ?_, fun d => ?_⟩ <;> rw [modRec_get] <;> split
  · exact hw _
  · rfl
  · exact ha _
  · rfl
  · exact hb _
  · rfl

theorem Minor.sameGrounds {s t : State} (h : Minor s t) : SameGrounds s t := by
  refine ⟨h.readMode, h.arm, h.stest, fun c => ?_, fun c => ?_, fun c => ?_⟩ <;>
    obtain ⟨p, r, e⟩ := h.records c <;> rw [e]

/-- The action changes nothing that a list of a command goes by. -/
def Act.steady : Act → Bool
  | .setCmpA _ _ | .setCmpB _ _ | .setWrmode _ _ | .setStest _ | .setPten _ | .zeroCtl | .goDown | .readMode _ => false
  | _ => true

theorem Act.run_steady {a : Act} {s t : State} (ha : a.steady = true) (h : a.run s = .cont t) : SameGrounds s t := by
  cases a with
  | write | await | readLo | readHi | statQuery | statClear | hPend0 | hPend1 | hFold | hCntLo | hCntHi | hSem
  | hNotify | hOwn | pssZero => exact ((Act.run_minor rfl s).apply h).sameGrounds
  | setMode | setLdc | setClc | setStc | setTst | setRdmode | setRdtout | setCmpirq | setCbirq | setLben | setXen
  | setSig | ienOn | ienOff | armRef | armMask | armSlave =>
    cases h
    exact .modRec (fun _ => rfl) (fun _ => rfl) fun _ => rfl
  | setCmpA | setCmpB | setWrmode | setStest | setPten | zeroCtl | goDown | readMode => cases ha
  | ret | hEnd => cases h
  | _ => cases h; exact .of_eq rfl rfl rfl rfl

/-- The conditions of a command's list are about its grounds. -/
theorem Guard.holds_of_sameGrounds {g : Guard} (hg : g.ofHandler = false) {s t : State} (h : SameGrounds s t) :
    g.holds t = g.holds s := by
  cases g with
  | always => rfl
  | readMode m => simp only [Guard.holds, h.readMode]
  | forceLoad c => simp only [Guard.holds, h.wrmode c]
  | arm => exact h.arm
  | edge | recompute | teardown => cases hg

/-- The teardown's condition is about the handler's locals. -/
theorem Guard.teardown_of_sameHandler {s t : State} (h : SameHandler s t) :
    Guard.teardown.holds t = Guard.teardown.holds s := by
  rw [SameHandler] at h
  simp only [Guard.holds, h]

/-! ## Lists that leave a part of the block in order -/

/-- What may have happened between two micro-steps: the grounds `G` are the same, and what was in order still is. -/
structure Rely (G : State → State → Prop) (k : Facet) (s t : State) : Prop where
  wf : t.par.Wf
  grounds : G s t
  order : k.Holds s → k.Holds t

/-- The action stores a value of its field's domain, and does not end the live window, after which only the mask is of
concern (R44). -/
def Act.Fits (a : Act) (k : Facet) : Prop := a.inDomain = true ∧ (k = .unmasked ∨ a ≠ .goDown)

/-- From `s` on, the micro-steps `ms` leave `k` in order, whatever happens between them within `Rely`: it is in order
where the list ends, and wherever a micro-step may end it. -/
def Restores (G : State → State → Prop) (k : Facet) : List Micro → State → Prop
  | [], s => k.Holds s
  | m :: rest, s => ∀ s', Rely G k s s' →
      (m.act.ends = true → k.Holds s') ∧ ∀ t, m.run s' = .cont t → m.act.Fits k → Restores G k rest t

/-- From every state with `P`, the micro-steps `ms` bring `k` in order for what follows. -/
def Settles (G : State → State → Prop) (k : Facet) (P : State → Prop) (ms : List Micro) : Prop :=
  ∀ rest, (∀ t, k.Holds t → Restores G k rest t) → ∀ s, P s → Restores G k (ms ++ rest) s

/-- The micro-steps `ms` find `k` in order and leave it so. -/
abbrev Keeps (G : State → State → Prop) (k : Facet) (ms : List Micro) : Prop := Settles G k k.Holds ms

section
variable {G : State → State → Prop} {k : Facet} {s t : State} {m : Micro} {ms ns : List Micro}

theorem Restores.rely (trans : ∀ {s t u : State}, G s t → G t u → G s u) (h : Restores G k ms s)
    (hr : Rely G k s t) : Restores G k ms t := by
  cases ms with
  | nil => exact hr.order h
  | cons m rest =>
    intro u hu
    exact h u ⟨hu.wf, trans hr.grounds hu.grounds, fun hs => hu.order (hr.order hs)⟩

theorem Settles.nil : Keeps G k [] := fun _ hr s hs => hr s hs

theorem Settles.append {P : State → Prop} (h : Settles G k P ms) (hn : Keeps G k ns) : Settles G k P (ms ++ ns) := by
  intro rest hr s hs
  rw [List.append_assoc]
  exact h _ (hn rest hr) s hs

theorem Settles.weaken {P Q : State → Prop} (h : Settles G k P ms) (hq : ∀ s, Q s → P s) : Settles G k Q ms :=
  fun rest hr s hs => h rest hr s (hq s hs)

/-- A micro-step that leads from `P`, which lasts, to `Q`. -/
theorem Settles.cons {P Q : State → Prop} (h : Settles G k Q ms) (last : ∀ s t, Rely G k s t → P s → P t)
    (hend : m.act.ends = true → ∀ s, P s → k.Holds s)
    (hrun : ∀ s t, s.par.Wf → P s → m.act.Fits k → m.run s = .cont t → Q t) : Settles G k P (m :: ms) := by
  intro rest hr s hs u hu
  exact ⟨fun he => hend he u (last s u hu hs),
    fun t ht hf => h rest hr t (hrun u t hu.wf (last s u hu hs) hf ht)⟩

/-- A micro-step that does not disturb `k`. -/
theorem Keeps.cons (h : Keeps G k ms) (hm : m.act.disturbs k = false) : Keeps G k (m :: ms) := by
  refine Settles.cons h (fun _ _ hr => hr.order) (fun _ _ hs => hs) fun s t hwf hs hf ht => ?_
  obtain ⟨-, rfl⟩ | ⟨-, ha⟩ := Micro.run_cont ht
  · exact hs
  · exact hs.run hwf hf.1 hm ha

theorem Keeps.of_undisturbed (h : ∀ m ∈ ms, m.act.disturbs k = false) : Keeps G k ms := by
  induction ms with
  | nil => exact .nil
  | cons m rest ih =>
    obtain ⟨hm, hrest⟩ := List.forall_mem_cons.mp h
    exact (ih hrest).cons hm

/-- Micro-steps that do not end the list, before some that bring `k` in order from any state. -/
theorem Settles.after (h : Settles G k (fun _ => True) ns) (hm : ∀ m ∈ ms, m.act.ends = false) :
    Settles G k (fun _ => True) (ms ++ ns) := by
  induction ms with
  | nil => exact h
  | cons m rest ih =>
    obtain ⟨hm, hrest⟩ := List.forall_mem_cons.mp hm
    exact Settles.cons (ih hrest) (fun _ _ _ _ => trivial) (fun he => by rw [hm] at he; cases he)
      fun _ _ _ _ _ _ => trivial

end

/-! ### Lists under one condition -/

/-- In a list under the condition `g`: `g` holds, and with it `X`; or it does not, and `k` is in order. -/
def Due (g : Guard) (X : State → Prop) (k : Facet) (s : State) : Prop :=
  (g.holds s = true ∧ X s) ∨ (g.holds s = false ∧ k.Holds s)

section
variable {G : State → State → Prop} {k : Facet} {g : Guard} {a : Act} {ms : List Micro} {X Y : State → Prop}

theorem Due.last (hg : ∀ s t, G s t → g.holds t = g.holds s) (hX : ∀ s t, G s t → X s → X t) (s t : State)
    (hr : Rely G k s t) (h : Due g X k s) : Due g X k t := by
  rw [Due, hg s t hr.grounds]
  obtain ⟨hs, hx⟩ | ⟨hs, hk⟩ := h
  · exact .inl ⟨hs, hX s t hr.grounds hx⟩
  · exact .inr ⟨hs, hr.order hk⟩

theorem Due.of_true {s : State} (h : Due g X k s) (hg : g.holds s = true) : X s := by
  obtain ⟨-, hx⟩ | ⟨hn, -⟩ := h
  · exact hx
  · rw [hg] at hn
    cases hn

theorem Due.of_false {s : State} (h : Due g X k s) (hg : g.holds s = false) : k.Holds s := by
  obtain ⟨hp, -⟩ | ⟨-, hk⟩ := h
  · rw [hg] at hp
    cases hp
  · exact hk

/-- An action under a condition: it is passed over, or it is performed. -/
theorem under_run_cont {s t : State} (h : (a.under g).run s = .cont t) :
    (g.holds s = false ∧ t = s) ∨ (g.holds s = true ∧ a.run s = .cont t) := Micro.run_cont h

/-- An action that leads from `X` to `Y` and spares the condition. -/
theorem Settles.due_cons (h : Settles G k (Due g Y k) ms) (hg : ∀ s t, G s t → g.holds t = g.holds s)
    (hX : ∀ s t, G s t → X s → X t) (he : a.ends = false)
    (hrun : ∀ s t, X s → a.run s = .cont t → g.holds t = g.holds s ∧ Y t) :
    Settles G k (Due g X k) (a.under g :: ms) := by
  refine Settles.cons h (Due.last hg hX) (fun h' => by rw [under_act, he] at h'; cases h') ?_
  intro s t _ hs _ ht
  obtain ⟨hn, rfl⟩ | ⟨hp, ha⟩ := under_run_cont ht
  · exact .inr ⟨hn, hs.of_false hn⟩
  · obtain ⟨eg, hy⟩ := hrun s t (hs.of_true hp) ha
    exact .inl ⟨eg.trans hp, hy⟩

/-- An action that puts `k` in order. -/
theorem Settles.due_mend (h : Keeps G k ms) (hg : ∀ s t, G s t → g.holds t = g.holds s)
    (hX : ∀ s t, G s t → X s → X t) (he : a.ends = false)
    (hrun : ∀ s t, s.par.Wf → X s → a.run s = .cont t → k.Holds t) : Settles G k (Due g X k) (a.under g :: ms) := by
  refine Settles.cons h (Due.last hg hX) (fun h' => by rw [under_act, he] at h'; cases h') ?_
  intro s t hwf hs _ ht
  obtain ⟨hn, rfl⟩ | ⟨hp, ha⟩ := under_run_cont ht
  · exact hs.of_false hn
  · exact hrun s t hwf (hs.of_true hp) ha

/-- A list that brings `k` in order where its condition holds keeps it in order. -/
theorem Settles.keeps_of_due (h : Settles G k (Due g (fun _ => True) k) ms) : Keeps G k ms :=
  h.weaken fun s hs => by
    cases hg : g.holds s
    · exact .inr ⟨hg, hs⟩
    · exact .inl ⟨hg, trivial⟩

/-- A list under no condition. -/
theorem Settles.of_due_always (h : Settles G k (Due .always X k) ms) : Settles G k X ms :=
  h.weaken fun _ hs => .inl ⟨rfl, hs⟩

end

end Sys2Proof.Machine

/-!
PROOFS. A change of CTL followed by the write of its register, the piece most lists are made of (for O56).
-/

namespace Sys2Proof.Machine

/-! ## Writes that put a register in agreement with its mirror -/

/-- The sources that are the mirror of a register (R21, R25, R29); TB is not stored (R59). -/
def Src.mirrors (src : Src) (r : Reg) : Bool :=
  match src with
  | .cctl c | .cctlTb c => r == .cntctl c
  | .ictl c => r == .intctl c
  | .octl0 => r == .outctl0
  | .octl1 => r == .outctl1
  | .ocfg => r == .outcfg
  | .stest => r == .selftest
  | _ => false

theorem writeReg_of_run {r : Reg} {src : Src} {s t : State} (hwf : s.par.Wf)
    (h : (Act.write r src).run s = .cont t) : writeReg r (src.eval s) s = .ok t := by
  rw [run_write hwf] at h
  cases hw : writeReg r (src.eval s) s with
  | ok u => rw [hw] at h; cases h; rfl
  | error e => rw [hw] at h; cases h

theorem writeCntctl_mirrored {c : Chan} {v : Reg16} {s t : State} (h : writeReg (.cntctl c) v s = .ok t)
    (hv : withoutTb s.par.cctl v = cctlWord s.par.cctl (s.ch.get c)) : RegMirrored (.cntctl c) t := by
  obtain e | ⟨n, l, tb, e⟩ := writeCntctl_cases h
  · cases e
  · obtain rfl := Except.ok.inj e
    simpa [RegMirrored] using hv

theorem write_mirrored {r : Reg} {src : Src} {s t : State} (hm : src.mirrors r = true) (hwf : s.par.Wf)
    (h : (Act.write r src).run s = .cont t) : RegMirrored r t := by
  have hw := writeReg_of_run hwf h
  have ⟨_, hcctl, _⟩ := hwf
  cases src with
  | cctl c =>
    obtain rfl := beq_iff_eq.mp hm
    exact writeCntctl_mirrored hw (withoutTb_cctlWord hcctl _)
  | cctlTb c =>
    obtain rfl := beq_iff_eq.mp hm
    exact writeCntctl_mirrored hw (withoutTb_cctlWord_tb hcctl _)
  | ictl c =>
    obtain rfl := beq_iff_eq.mp hm
    obtain rfl := Except.ok.inj hw
    simp [RegMirrored, Src.eval]
  | octl0 | octl1 | ocfg | stest =>
    obtain rfl := beq_iff_eq.mp hm
    obtain rfl := Except.ok.inj hw
    rfl
  | _ => cases hm

/-- A constant written to a comparator half, or to SELFTEST, while the mirror has that value (R107, R108, R206). -/
theorem write_const_mirrored {r : Reg} {v : Reg16} {s t : State} (hwf : s.par.Wf)
    (h : (Act.write r (.const v)).run s = .cont t)
    (hv : (∃ c, (r = .cmpaLo c ∧ v = lo16 (s.ch.get c).cmpA) ∨ (r = .cmpaHi c ∧ v = hi16 (s.ch.get c).cmpA) ∨
        (r = .cmpbLo c ∧ v = lo16 (s.ch.get c).cmpB) ∨ (r = .cmpbHi c ∧ v = hi16 (s.ch.get c).cmpB)) ∨
      (r = .selftest ∧ v = s.stest)) : RegMirrored r t := by
  have hw := writeReg_of_run hwf h
  obtain ⟨c, ⟨rfl, hv⟩ | ⟨rfl, hv⟩ | ⟨rfl, hv⟩ | ⟨rfl, hv⟩⟩ | ⟨rfl, hv⟩ := hv <;>
    obtain rfl := Except.ok.inj hw <;> simpa [RegMirrored, Src.eval] using hv

/-! ## Actions that spare the conditions of the lists -/

/-- The action changes nothing that a condition reads. -/
def Act.sparing (a : Act) : Bool :=
  match a with
  | .setWrmode _ _ | .setPten _ | .zeroCtl | .goDown | .readMode _ | .await _ | .ret _ => false
  | a => !a.handlerOnly

theorem Guard.holds_congr (g : Guard) {s t : State} (hl : t.loc.m = s.loc.m ∧ t.loc.arm = s.loc.arm)
    (hw : ∀ c, (t.ch.get c).wrmode = (s.ch.get c).wrmode) (hh : t.hloc = s.hloc) : g.holds t = g.holds s := by
  obtain ⟨hm, ha⟩ := hl
  cases g with
  | always => rfl
  | readMode m => simp only [Guard.holds, hm]
  | forceLoad c => simp only [Guard.holds, hw c]
  | arm => exact ha
  | edge | recompute | teardown => simp only [Guard.holds, hh]

theorem Guard.holds_modRec (g : Guard) {s : State} {c : Chan} {f : ChanRec → ChanRec}
    (hw : ∀ x, (f x).wrmode = x.wrmode) : g.holds (s.modRec c f) = g.holds s := by
  refine g.holds_congr ⟨rfl, rfl⟩ (fun d => ?_) rfl
  rw [modRec_get]
  split
  · exact hw _
  · rfl

theorem memWrite_hloc {addr size : Nat} {v : Reg16} {s t : State} (h : memWrite addr size v s = .ok t) :
    t.hloc = s.hloc := by
  obtain ⟨r, -, hr⟩ := memWrite_ok h
  rw [writeReg_ok_frame hr]

theorem memRead_hloc {addr size : Nat} {v : Reg16} {s t : State} (h : memRead addr size s = .ok (v, t)) :
    t.hloc = s.hloc := by
  obtain ⟨r, -, hr⟩ := memRead_ok h
  rw [readReg_ok_frame hr]

theorem ofRead_hloc {addr size : Nat} {s t : State} {store : Reg16 → State → State}
    (h : Flow.ofRead store (memRead addr size s) = .cont t) (k : ∀ v u, (store v u).hloc = u.hloc) :
    t.hloc = s.hloc :=
  (Flow.onCont_ofRead (P := fun u => u.hloc = s.hloc) fun v u hu => (k v u).trans (memRead_hloc hu)).apply h

/-- A minor action that keeps the handler's locals spares every condition. -/
theorem Minor.holds {s t : State} (h : Minor s t) (g : Guard) (hh : t.hloc = s.hloc) : g.holds t = g.holds s :=
  g.holds_congr ⟨h.readMode, h.arm⟩ h.sameGrounds.wrmode hh

theorem Act.run_spares {a : Act} {s t : State} (ha : a.sparing = true) (g : Guard) (h : a.run s = .cont t) :
    g.holds t = g.holds s := by
  cases a with
  | write r src =>
    exact (Flow.onCont_ofWrite (P := fun u => g.holds u = g.holds s) fun u hu =>
      (memWrite_minor hu).holds g (memWrite_hloc hu)).apply h
  | readLo | readHi =>
    exact ((Act.run_minor rfl s).apply h).holds g (ofRead_hloc h fun _ _ => rfl)
  | statQuery c =>
    refine ((Act.run_minor rfl s).apply h).holds g ?_
    simp only [Act.run] at h
    split at h
    · cases h; rfl
    · exact ofRead_hloc h fun _ _ => rfl
  | statClear c mask =>
    refine ((Act.run_minor rfl s).apply h).holds g ?_
    simp only [Act.run] at h
    split at h
    · cases h; rfl
    · exact (Flow.onCont_ofWrite (P := fun u => u.hloc = s.hloc) fun u hu => memWrite_hloc hu).apply h
  | setMode | setLdc | setClc | setStc | setTst | setCmpA | setCmpB | setRdmode | setRdtout | setCmpirq | setCbirq
  | setLben | setXen | setSig | ienOn | ienOff | pssZero | armRef | armMask | armSlave =>
    cases h
    exact g.holds_modRec fun _ => rfl
  | setWrmode | setPten | zeroCtl | goDown | readMode | await | ret | hPend0 | hPend1 | hFold | hOwn | hEdge
  | hCntLo | hCntHi | hDecide | hCompute | hCount | hSem | hNotify | hEnd => cases ha
  | _ => cases h; exact g.holds_congr ⟨rfl, rfl⟩ (fun _ => rfl) rfl

/-! ## The lists that commands and handler share -/

section
variable {G : State → State → Prop} {k : Facet} {g : Guard}

/-- Every condition that stands in a list lasts while nothing the list goes by changes. -/
def Guard.Lasts (g : Guard) (G : State → State → Prop) : Prop := ∀ s t, G s t → g.holds t = g.holds s

theorem Guard.lasts_always : Guard.always.Lasts G := fun _ _ _ => rfl

theorem Guard.lasts_of_command (hg : g.ofHandler = false) : g.Lasts SameGrounds :=
  fun _ _ h => Guard.holds_of_sameGrounds hg h

theorem Guard.lasts_teardown : Guard.teardown.Lasts SameHandler := fun _ _ h => Guard.teardown_of_sameHandler h

/-- An action of a list that does not put `k` in order yet. -/
theorem Settles.due_pass {a : Act} {ms : List Micro} (h : Settles G k (Due g (fun _ => True) k) ms)
    (hg : g.Lasts G) (ha : a.sparing = true) (he : a.ends = false) :
    Settles G k (Due g (fun _ => True) k) (a.under g :: ms) :=
  h.due_cons hg (fun _ _ _ _ => trivial) he fun _ _ _ ht => ⟨Act.run_spares ha g ht, trivial⟩

/-- An action of a list that puts `k` in order by itself. -/
theorem Keeps.due_mend {a : Act} {ms : List Micro} (h : Keeps G k ms) (hg : g.Lasts G) (he : a.ends = false)
    (hrun : ∀ s t, s.par.Wf → a.run s = .cont t → k.Holds t) :
    Settles G k (Due g (fun _ => True) k) (a.under g :: ms) :=
  Settles.due_mend h hg (fun _ _ _ _ => trivial) he fun s t hwf _ ht => hrun s t hwf ht

/-- An action that disturbs one register at most, then the write of that register's mirror (R100, R105, R131). -/
theorem due_store {a : Act} {r : Reg} {src : Src} (hg : g.Lasts G) (ha : a.sparing = true) (he : a.ends = false)
    (hs : src.mirrors r = true) :
    Settles G (.register r) (Due g (fun _ => True) (.register r)) [a.under g, (Act.write r src).under g] :=
  Settles.due_pass (Keeps.due_mend .nil hg rfl fun _ _ hwf ht => write_mirrored hs hwf ht) hg ha he

/-- An action that dirties one register, and is neither `ien <- 0` nor the opening of a masked section. -/
theorem Act.disturbs_only {a : Act} {r : Reg} (hr : ∀ q, a.dirties q = true → q = r) (hs : ∀ c, a.disables c = false)
    (hm : a.opensMask = false) (hk : k ≠ .register r) : a.disturbs k = false := by
  cases k with
  | register q => exact Bool.eq_false_iff.mpr fun h => hk (by rw [hr q h])
  | shadow c => exact hs c
  | domains => rfl
  | unmasked => exact hm

theorem write_undisturbing {r : Reg} {src : Src} (hk : k ≠ .register r) : (Act.write r src).disturbs k = false :=
  Act.disturbs_only (fun q h => by
    have h : (q == r && hasMirror r) = true := h
    simp only [Bool.and_eq_true, beq_iff_eq] at h
    exact h.1) (fun _ => rfl) rfl hk

/-- A change of a field that one register shows, then that register: every part is left in order. -/
theorem keeps_store {a : Act} {r : Reg} {src : Src} (hg : g.Lasts G)
    (ha : a.sparing = true) (he : a.ends = false) (hs : src.mirrors r = true)
    (hd : ∀ k, k ≠ .register r → a.disturbs k = false) : Keeps G k [a.under g, (Act.write r src).under g] := by
  by_cases hk : k = .register r
  · subst hk
    exact (due_store hg ha he hs).keeps_of_due
  · exact (Keeps.cons (.cons .nil (write_undisturbing hk)) (hd k hk))

/-- ForceNow leaves `CCTL(c)` in CNTCTL[c] (R105). -/
theorem forceSteps_keeps (hg : g.Lasts G) (c : Chan) (f : ForceField) : Keeps G k (forceSteps c f g) :=
  keeps_store hg rfl rfl (by simp [Src.mirrors]) fun _ hk => write_undisturbing hk

end

end Sys2Proof.Machine

/-!
PROOFS. The lists of all commands but INIT leave in order what they find in order (for O56).
-/

namespace Sys2Proof.Machine

section
variable {G : State → State → Prop} {k : Facet} {g : Guard}

/-! ### Segments: a field and its register, a pair, a masked section -/

/-- An action that disturbs nothing. -/
theorem Act.disturbs_none {a : Act} (hr : ∀ q, a.dirties q = false) (hs : ∀ c, a.disables c = false)
    (hm : a.opensMask = false) : a.disturbs k = false := by
  cases k with
  | register q => exact hr q
  | shadow c => exact hs c
  | domains => rfl
  | unmasked => exact hm

/-- A write of a register without a mirror. -/
theorem write_free {r : Reg} {src : Src} (hr : hasMirror r = false) : (Act.write r src).disturbs k = false :=
  Act.disturbs_none (fun q => by
    change (q == r && hasMirror r) = false
    rw [hr, Bool.and_false]) (fun _ => rfl) rfl

/-- A field of CTL that one register shows, then that register (R100, R131, R166, R180). -/
theorem keeps_field {a : Act} {r : Reg} {src : Src} (hg : g.Lasts G) (ha : a.sparing = true) (he : a.ends = false)
    (hr : ∀ q, a.dirties q = (q == r)) (hs : ∀ c, a.disables c = false) (hm : a.opensMask = false)
    (hsrc : src.mirrors r = true) : Keeps G k [a.under g, (Act.write r src).under g] :=
  keeps_store hg ha he hsrc fun _ hk => Act.disturbs_only (fun q h => by rw [hr] at h; exact beq_iff_eq.mp h) hs hm hk

/-- A pair of writes to registers without a mirror (R54). -/
theorem writePair_free {lo hi : Reg} {x y : Src} (hl : hasMirror lo = false) (hh : hasMirror hi = false) :
    Keeps G k (writePair lo hi x y g) := .cons (.cons .nil (write_free hh)) (write_free hl)

/-- A field of CTL that the two registers of a pair show, then the pair; `Y` says that the field has the value
written (R107, R108). -/
theorem settles_pair {a : Act} {lo hi : Reg} {x y : Reg16} {Y : State → Prop} {r : Reg} (hg : g.Lasts SameGrounds)
    (ha : a.sparing = true) (he : a.ends = false) (hY : ∀ s t, SameGrounds s t → Y s → Y t)
    (hset : ∀ s t, a.run s = .cont t → Y t)
    (hlo : ∀ s t, s.par.Wf → Y s → (Act.write lo (.const x)).run s = .cont t → RegMirrored lo t)
    (hhi : ∀ s t, s.par.Wf → Y s → (Act.write hi (.const y)).run s = .cont t → RegMirrored hi t)
    (hne : lo ≠ hi) (hr : r = lo ∨ r = hi) :
    Settles SameGrounds (.register r) (Due g (fun _ => True) (.register r))
      (a.under g :: writePair lo hi (.const x) (.const y) g) := by
  refine Settles.due_cons (Y := Y) ?_ hg (fun _ _ _ _ => trivial) he fun s t _ ht =>
    ⟨Act.run_spares ha g ht, hset s t ht⟩
  obtain rfl | rfl := hr
  · exact Settles.due_mend (.cons .nil (write_undisturbing fun e => hne (Facet.register.inj e))) hg hY rfl hlo
  · refine Settles.due_cons (Y := Y) (Settles.due_mend .nil hg hY rfl hhi) hg hY rfl fun s t hs ht =>
      ⟨Act.run_spares rfl g ht, hY s t (Act.run_steady rfl ht) hs⟩

/-- Comparator A: the record, then its two registers (R107). -/
theorem setCmpA_settles {c : Chan} {v : Word} {r : Reg} (hg : g.Lasts SameGrounds)
    (hr : r = .cmpaLo c ∨ r = .cmpaHi c) :
    Settles SameGrounds (.register r) (Due g (fun _ => True) (.register r))
      ((Act.setCmpA c v).under g :: writePair (.cmpaLo c) (.cmpaHi c) (.const (lo16 v)) (.const (hi16 v)) g) :=
  settles_pair (Y := fun s => (s.ch.get c).cmpA = v) hg rfl rfl (fun _ _ h e => (h.cmpA c).trans e)
    (fun s t h => by cases h; simp)
    (fun s t hwf e h => write_const_mirrored hwf h (.inl ⟨c, .inl ⟨rfl, by rw [e]⟩⟩))
    (fun s t hwf e h => write_const_mirrored hwf h (.inl ⟨c, .inr (.inl ⟨rfl, by rw [e]⟩)⟩)) (by simp) hr

/-- Comparator B: the record, then its two registers (R108). -/
theorem setCmpB_settles {c : Chan} {v : Word} {r : Reg} (hg : g.Lasts SameGrounds)
    (hr : r = .cmpbLo c ∨ r = .cmpbHi c) :
    Settles SameGrounds (.register r) (Due g (fun _ => True) (.register r))
      ((Act.setCmpB c v).under g :: writePair (.cmpbLo c) (.cmpbHi c) (.const (lo16 v)) (.const (hi16 v)) g) :=
  settles_pair (Y := fun s => (s.ch.get c).cmpB = v) hg rfl rfl (fun _ _ h e => (h.cmpB c).trans e)
    (fun s t h => by cases h; simp)
    (fun s t hwf e h => write_const_mirrored hwf h (.inl ⟨c, .inr (.inr (.inl ⟨rfl, by rw [e]⟩))⟩))
    (fun s t hwf e h => write_const_mirrored hwf h (.inl ⟨c, .inr (.inr (.inr ⟨rfl, by rw [e]⟩))⟩)) (by simp) hr

/-- A pair that settles its two registers keeps every part in order. -/
theorem keeps_pair {a : Act} {lo hi : Reg} {x y : Src}
    (h : ∀ {r : Reg}, r = lo ∨ r = hi → Settles G (.register r) (Due g (fun _ => True) (.register r))
      (a.under g :: writePair lo hi x y g))
    (hr : ∀ q, a.dirties q = (q == lo || q == hi)) (hs : ∀ c, a.disables c = false) (hm : a.opensMask = false) :
    Keeps G k (a.under g :: writePair lo hi x y g) := by
  by_cases hl : k = .register lo
  · subst hl; exact (h (.inl rfl)).keeps_of_due
  by_cases hh : k = .register hi
  · subst hh; exact (h (.inr rfl)).keeps_of_due
  refine Keeps.cons (.cons (.cons .nil (write_undisturbing hh)) (write_undisturbing hl)) ?_
  cases k with
  | register q =>
    have nl : q ≠ lo := fun e => hl (by rw [e])
    have nh : q ≠ hi := fun e => hh (by rw [e])
    change a.dirties q = false
    rw [hr]
    simp [nl, nh]
  | shadow c => exact hs c
  | domains => rfl
  | unmasked => exact hm

theorem setCmpA_keeps {c : Chan} {v : Word} (hg : g.Lasts SameGrounds) :
    Keeps SameGrounds k
      ((Act.setCmpA c v).under g :: writePair (.cmpaLo c) (.cmpaHi c) (.const (lo16 v)) (.const (hi16 v)) g) :=
  keeps_pair (setCmpA_settles hg) (fun _ => rfl) (fun _ => rfl) rfl

theorem setCmpB_keeps {c : Chan} {v : Word} (hg : g.Lasts SameGrounds) :
    Keeps SameGrounds k
      ((Act.setCmpB c v).under g :: writePair (.cmpbLo c) (.cmpbHi c) (.const (lo16 v)) (.const (hi16 v)) g) :=
  keeps_pair (setCmpB_settles hg) (fun _ => rfl) (fun _ => rfl) rfl

/-- SetIen(c, 0) without its masked section: the shadow of the disabled channel is zeroed, INTCTL rewritten (R140). -/
theorem ienOffSteps_keeps (hg : g.Lasts G) (c : Chan) : Keeps G k (ienOffSteps c g) := by
  have hwrite : Src.mirrors (.ictl c) (.intctl c) = true := by simp [Src.mirrors]
  by_cases hs : k = .shadow c
  · subst hs
    have zeroed : ∀ s t, s.par.Wf → (Act.pssZero c).run s = .cont t → ShadowHolds c t := fun s t _ h => by
      cases h
      simp [ShadowHolds]
    exact (Settles.due_pass (Keeps.due_mend (.cons .nil (write_undisturbing (by simp))) hg rfl zeroed) hg rfl
      rfl).keeps_of_due
  by_cases hr : k = .register (.intctl c)
  · subst hr
    exact (Settles.due_pass (due_store hg rfl rfl hwrite) hg rfl rfl).keeps_of_due
  refine .cons (.cons (.cons .nil (write_undisturbing hr)) ?_) ?_
  · exact Act.disturbs_none (fun _ => rfl) (fun _ => rfl) rfl
  · cases k with
    | register q => exact beq_eq_false_iff_ne.mpr fun e => hr (by rw [e])
    | shadow d => exact beq_eq_false_iff_ne.mpr fun e => hs (by rw [e])
    | domains => rfl
    | unmasked => rfl

/-- Micro-steps under one condition that do not end their list. -/
theorem Settles.due_pass_all {ms ns : List Micro} (h : Settles G k (Due g (fun _ => True) k) ns) (hg : g.Lasts G)
    (hm : ∀ m ∈ ms, m.guard = g ∧ m.act.sparing = true ∧ m.act.ends = false) :
    Settles G k (Due g (fun _ => True) k) (ms ++ ns) := by
  induction ms with
  | nil => exact h
  | cons m rest ih =>
    obtain ⟨⟨rfl, ha, he⟩, hrest⟩ := List.forall_mem_cons.mp hm
    exact Settles.due_pass (ih hrest) hg ha he

/-- A masked section is closed again (R66). -/
theorem keeps_masked {ms : List Micro} (hg : g.Lasts G)
    (hm : ∀ m ∈ ms, m.guard = g ∧ m.act.sparing = true ∧ m.act.ends = false) (h : k ≠ .unmasked → Keeps G k ms) :
    Keeps G k (Act.maskOpen.under g :: (ms ++ [Act.maskClose.under g])) := by
  by_cases hk : k = .unmasked
  · subst hk
    have closed : ∀ s t, s.par.Wf → Act.maskClose.run s = .cont t → t.imask = false := fun s t _ h => by
      cases h; rfl
    exact (Settles.due_pass (Settles.due_pass_all (Keeps.due_mend .nil hg rfl closed) hg hm) hg rfl rfl).keeps_of_due
  · have close : Act.maskClose.disturbs k = false := Act.disturbs_none (fun _ => rfl) (fun _ => rfl) rfl
    refine Keeps.cons ((h hk).append (.cons .nil close)) ?_
    cases k with
    | unmasked => exact absurd rfl hk
    | register | shadow | domains => rfl

/-! ### The lists of the commands -/

theorem ret_undisturbing {q : Query} : (Act.ret q).disturbs k = false :=
  Act.disturbs_none (fun _ => rfl) (fun _ => rfl) rfl

theorem setModeSteps_keeps (c : Chan) (d : Word) : Keeps G k (setModeSteps c d) :=
  keeps_field Guard.lasts_always rfl rfl (fun _ => rfl) (fun _ => rfl) rfl (by simp [Src.mirrors])

theorem setLoadSteps_keeps (c : Chan) (d : Word) : Keeps G k (setLoadSteps c d) := by
  unfold setLoadSteps
  split
  · exact forceSteps_keeps Guard.lasts_always c .load
  · exact keeps_field Guard.lasts_always rfl rfl (fun _ => rfl) (fun _ => rfl) rfl (by simp [Src.mirrors])

theorem setClearSteps_keeps (c : Chan) (d : Word) : Keeps G k (setClearSteps c d) := by
  unfold setClearSteps
  split
  · exact forceSteps_keeps Guard.lasts_always c .clr
  · exact keeps_field Guard.lasts_always rfl rfl (fun _ => rfl) (fun _ => rfl) rfl (by simp [Src.mirrors])

theorem setStoreSteps_keeps (c : Chan) (d : Word) : Keeps G k (setStoreSteps c d) := by
  unfold setStoreSteps
  split
  · exact forceSteps_keeps Guard.lasts_always c .sto
  · exact keeps_field Guard.lasts_always rfl rfl (fun _ => rfl) (fun _ => rfl) rfl (by simp [Src.mirrors])

theorem setTstartSteps_keeps (c : Chan) (d : Word) : Keeps G k (setTstartSteps c d) :=
  keeps_field Guard.lasts_always rfl rfl (fun _ => rfl) (fun _ => rfl) rfl (by simp [Src.mirrors])

theorem setCompirqSteps_keeps (c : Chan) (d : Word) : Keeps G k (setCompirqSteps c d) :=
  keeps_field Guard.lasts_always rfl rfl (fun _ => rfl) (fun _ => rfl) rfl (by simp [Src.mirrors])

theorem setCbirqSteps_keeps (c : Chan) (d : Word) : Keeps G k (setCbirqSteps c d) :=
  keeps_field Guard.lasts_always rfl rfl (fun _ => rfl) (fun _ => rfl) rfl (by simp [Src.mirrors])

theorem setLbirqSteps_keeps (c : Chan) (d : Word) : Keeps G k (setLbirqSteps c d) :=
  keeps_field Guard.lasts_always rfl rfl (fun _ => rfl) (fun _ => rfl) rfl (by simp [Src.mirrors])

theorem setXirqSteps_keeps (c : Chan) (d : Word) : Keeps G k (setXirqSteps c d) :=
  keeps_field Guard.lasts_always rfl rfl (fun _ => rfl) (fun _ => rfl) rfl (by simp [Src.mirrors])

theorem setCompaSteps_keeps (c : Chan) (d : Word) : Keeps SameGrounds k (setCompaSteps c d) :=
  setCmpA_keeps Guard.lasts_always

theorem setCompbSteps_keeps (c : Chan) (d : Word) : Keeps SameGrounds k (setCompbSteps c d) :=
  setCmpB_keeps Guard.lasts_always

theorem setReadmodeSteps_keeps (c : Chan) (d : Word) : Keeps G k (setReadmodeSteps c d) :=
  .cons .nil (Act.disturbs_none (fun _ => rfl) (fun _ => rfl) rfl)

theorem setReadtoutSteps_keeps (c : Chan) (d : Word) : Keeps G k (setReadtoutSteps c d) :=
  .cons .nil (Act.disturbs_none (fun _ => rfl) (fun _ => rfl) rfl)

theorem setWritemodeSteps_keeps (c : Chan) (d : Word) : Keeps G k (setWritemodeSteps c d) :=
  .cons .nil (Act.disturbs_none (fun _ => rfl) (fun _ => rfl) rfl)

theorem ienOnSteps_keeps (hg : g.Lasts G) (c : Chan) : Keeps G k (ienOnSteps c g) :=
  keeps_field hg rfl rfl (fun _ => rfl) (fun _ => rfl) rfl (by simp [Src.mirrors])

theorem setIrqenSteps_keeps (c : Chan) (d : Word) : Keeps G k (setIrqenSteps c d) := by
  unfold setIrqenSteps setIenSteps
  split
  · exact ienOnSteps_keeps Guard.lasts_always c
  · refine keeps_masked Guard.lasts_always ?_ fun _ => ienOffSteps_keeps Guard.lasts_always c
    simp [ienOffSteps, Act.under, Act.sparing, Act.handlerOnly, Act.ends]

theorem setOutmodeSteps_keeps (d : Word) : Keeps G k (setOutmodeSteps d) :=
  Settles.append (ms := [(Act.setOctl0 (lo16 d)).always, (Act.write .outctl0 .octl0).always])
    (keeps_field Guard.lasts_always rfl rfl (fun _ => rfl) (fun _ => rfl) rfl rfl)
    (keeps_field Guard.lasts_always rfl rfl (fun _ => rfl) (fun _ => rfl) rfl rfl)

theorem setOutsetSteps_keeps (d : Word) : Keeps G k (setOutsetSteps d) :=
  keeps_field Guard.lasts_always rfl rfl (fun _ => rfl) (fun _ => rfl) rfl rfl

theorem setSelftestSteps_keeps (d : Word) : Keeps G k (setSelftestSteps d) :=
  keeps_field Guard.lasts_always rfl rfl (fun _ => rfl) (fun _ => rfl) rfl rfl

/-- FREQSTART: TB is not stored, so CNTCTL keeps `CCTL(c)` (R59, R109). -/
theorem freqstartSteps_keeps (c : Chan) : Keeps G k [(Act.write (.cntctl c) (.cctlTb c)).always] := by
  by_cases hk : k = .register (.cntctl c)
  · subst hk
    have stored : Src.mirrors (.cctlTb c) (.cntctl c) = true := by simp [Src.mirrors]
    exact (Keeps.due_mend (k := .register (.cntctl c)) .nil Guard.lasts_always rfl fun s t hwf h =>
      write_mirrored stored hwf h).keeps_of_due
  · exact .cons .nil (write_undisturbing hk)

theorem lasts_arm : Guard.arm.Lasts SameGrounds := Guard.lasts_of_command rfl

theorem armRefSteps_keeps : Keeps SameGrounds k armRefSteps := by
  refine (writePair_free rfl rfl).append (Settles.append (ms := (Act.setCmpA .chA cmpNever).under .arm :: writePair
    (.cmpaLo .chA) (.cmpaHi .chA) (.const (lo16 cmpNever)) (.const (hi16 cmpNever)) .arm) (setCmpA_keeps lasts_arm) ?_)
  exact Settles.append (ms := [Act.orOcfg.under .arm, (Act.write .outcfg .ocfg).under .arm])
    (keeps_field lasts_arm rfl rfl (fun _ => rfl) (fun _ => rfl) rfl rfl)
    (keeps_field lasts_arm rfl rfl (fun _ => rfl) (fun _ => rfl) rfl rfl)

theorem armSlaveSteps_keeps (c : Chan) : Keeps SameGrounds k (armSlaveSteps c) := by
  refine Settles.append (ms := (Act.setCmpA c 0).under .arm :: writePair (.cmpaLo c) (.cmpaHi c) (.const (lo16 0))
    (.const (hi16 0)) .arm) (setCmpA_keeps lasts_arm) (Settles.append (ms := Act.maskOpen.under .arm ::
    ([(Act.armMask c).under .arm, (Act.write (.intctl c) (.ictl c)).under .arm] ++ [Act.maskClose.under .arm])) ?_ ?_)
  · refine keeps_masked lasts_arm ?_ fun _ =>
      keeps_field lasts_arm rfl rfl (fun _ => rfl) (fun _ => rfl) rfl (by simp [Src.mirrors])
    simp [Act.under, Act.sparing, Act.handlerOnly, Act.ends]
  · exact keeps_field lasts_arm rfl rfl (fun _ => rfl) (fun _ => rfl) rfl (by simp [Src.mirrors])

theorem armOutputSteps_keeps : Keeps SameGrounds k armOutputSteps :=
  Settles.append (ms := [Act.armOctl0.under .arm, (Act.write .outctl0 .octl0).under .arm])
    (keeps_field lasts_arm rfl rfl (fun _ => rfl) (fun _ => rfl) rfl rfl)
    (keeps_field lasts_arm rfl rfl (fun _ => rfl) (fun _ => rfl) rfl rfl)

theorem armEnableSteps_keeps : Keeps SameGrounds k armEnableSteps :=
  (ienOnSteps_keeps lasts_arm .chA).append
    (keeps_field lasts_arm rfl rfl (fun _ => rfl) (fun _ => rfl) rfl (by simp [Src.mirrors]))

/-- The arm sequence (R163 to R167). -/
theorem armSteps_keeps : Keeps SameGrounds k armSteps :=
  armRefSteps_keeps.append ((armSlaveSteps_keeps .chB).append ((armSlaveSteps_keeps .chC).append
    (armOutputSteps_keeps.append
      (armEnableSteps_keeps.cons (Act.disturbs_none (fun _ => rfl) (fun _ => rfl) rfl)))))

theorem writeSteps_keeps (c : Chan) (d : Word) : Keeps SameGrounds k (writeSteps c d) :=
  (writePair_free rfl rfl).append (forceSteps_keeps (Guard.lasts_of_command rfl) c .load)

/-- READ: its wait ends it with everything in order, its masked section is closed (R111). -/
theorem readSteps_keeps (c : Chan) : Keeps SameGrounds k (readSteps c) := by
  have wait : Keeps SameGrounds k [(Act.readMode c).always, (Act.await c).under (.readMode 1)] :=
    Keeps.cons (Keeps.cons .nil (Act.disturbs_none (fun _ => rfl) (fun _ => rfl) rfl))
      (Act.disturbs_none (fun _ => rfl) (fun _ => rfl) rfl)
  have halves : Keeps SameGrounds k [(Act.readLo c).always, (Act.readHi c).always] :=
    Keeps.cons (Keeps.cons .nil (Act.disturbs_none (fun _ => rfl) (fun _ => rfl) rfl))
      (Act.disturbs_none (fun _ => rfl) (fun _ => rfl) rfl)
  have masked : Keeps SameGrounds k (Act.maskOpen.always :: ([(Act.readLo c).always, (Act.readHi c).always] ++
      [Act.maskClose.always])) :=
    keeps_masked Guard.lasts_always (by simp [Act.always, Act.sparing, Act.handlerOnly, Act.ends]) fun _ => halves
  exact wait.append ((forceSteps_keeps (Guard.lasts_of_command rfl) c .sto).append
    (masked.append (.cons .nil ret_undisturbing)))

/-- A masked section with one action that disturbs nothing. -/
theorem keeps_masked_one {a : Act} (ha : a.sparing = true) (he : a.ends = false) (hr : ∀ q, a.dirties q = false)
    (hs : ∀ c, a.disables c = false) (hm : a.opensMask = false) :
    Keeps G k [Act.maskOpen.always, a.always, Act.maskClose.always] :=
  keeps_masked (ms := [a.always]) Guard.lasts_always (fun m hm => by
    obtain rfl := List.mem_singleton.mp hm
    exact ⟨rfl, ha, he⟩) fun _ => .cons .nil (Act.disturbs_none hr hs hm)

/-- EXIT ends the live window first; after that only the mask is of concern, and EXIT opens no masked section. -/
theorem exitSteps_keeps : Keeps G k exitSteps := by
  by_cases hk : k = .unmasked
  · subst hk
    refine Keeps.of_undisturbed ?_
    simp [exitSteps, exitChanSteps, Act.disturbs, Act.opensMask]
  · intro rest hr s hs u hu
    refine ⟨fun he => (by cases he), fun t _ hf => ?_⟩
    obtain ⟨-, h | h⟩ := hf
    · exact absurd h hk
    · exact absurd rfl h

/-- Every command but INIT leaves in order what it found in order (R44). -/
theorem microSteps_keeps {i : Instr} (p : CfgPort) (hi : i ≠ .init) : Keeps SameGrounds k (microSteps p i) := by
  have answered : ∀ {ms q}, Keeps SameGrounds k ms → Keeps SameGrounds k (ms ++ [(Act.ret q).always]) :=
    fun h => h.append (.cons .nil ret_undisturbing)
  cases i with
  | init => exact absurd rfl hi
  | exit => exact answered exitSteps_keeps
  | setMode c d => exact answered (setModeSteps_keeps c d)
  | setLoad c d => exact answered (setLoadSteps_keeps c d)
  | setClear c d => exact answered (setClearSteps_keeps c d)
  | setStore c d => exact answered (setStoreSteps_keeps c d)
  | setTstart c d => exact answered (setTstartSteps_keeps c d)
  | setCompa c d => exact answered (setCompaSteps_keeps c d)
  | setCompb c d => exact answered (setCompbSteps_keeps c d)
  | setReadmode c d => exact answered (setReadmodeSteps_keeps c d)
  | setReadtout c d => exact answered (setReadtoutSteps_keeps c d)
  | setWritemode c d => exact answered (setWritemodeSteps_keeps c d)
  | freqstart c => exact answered (freqstartSteps_keeps c)
  | setIrqen c d => exact answered (setIrqenSteps_keeps c d)
  | setCompirq c d => exact answered (setCompirqSteps_keeps c d)
  | setCbirq c d => exact answered (setCbirqSteps_keeps c d)
  | setLbirq c d => exact answered (setLbirqSteps_keeps c d)
  | setXirq c d => exact answered (setXirqSteps_keeps c d)
  | clrIrqstat c d | getIrqstat c => exact answered (keeps_masked_one rfl rfl (fun _ => rfl) (fun _ => rfl) rfl)
  | siginst c j d | sigrem c j =>
    refine answered ?_
    cases kindOfField j with
    | none => exact .nil
    | some j => exact .cons .nil (Act.disturbs_none (fun _ => rfl) (fun _ => rfl) rfl)
  | setPtofs d => exact answered (.cons .nil (Act.disturbs_none (fun _ => rfl) (fun _ => rfl) rfl))
  | setPten d => exact answered (armSteps_keeps.cons (Act.disturbs_none (fun _ => rfl) (fun _ => rfl) rfl))
  | setOutmode d => exact answered (setOutmodeSteps_keeps d)
  | setOutset d => exact answered (setOutsetSteps_keeps d)
  | setSelftest d => exact answered (setSelftestSteps_keeps d)
  | write c d => exact answered (writeSteps_keeps c d)
  | read c => exact readSteps_keeps c
  | _ => exact .cons .nil ret_undisturbing

end

end Sys2Proof.Machine

/-!
PROOFS. INIT's list brings in order what it finds out of order (for O56).
-/

namespace Sys2Proof.Machine

/-! ### INIT -/

section
variable {G : State → State → Prop} {k : Facet} {ms ns : List Micro}

/-- No micro-step of the list can end it. -/
def Unending (ms : List Micro) : Prop := ∀ m ∈ ms, m.act.ends = false

@[simp] theorem unending_nil : Unending [] := by simp [Unending]

@[simp] theorem unending_cons (m : Micro) (ms : List Micro) :
    Unending (m :: ms) ↔ m.act.ends = false ∧ Unending ms := List.forall_mem_cons

@[simp] theorem unending_append (ms ns : List Micro) : Unending (ms ++ ns) ↔ Unending ms ∧ Unending ns :=
  List.forall_mem_append

@[simp] theorem forceSteps_unending (c : Chan) (f : ForceField) (g : Guard) : Unending (forceSteps c f g) := by
  simp [forceSteps, Act.ends]

theorem setLoadSteps_unending (c : Chan) (d : Word) : Unending (setLoadSteps c d) := by
  unfold setLoadSteps
  split <;> simp [rewriteCctl, Act.ends]

theorem setClearSteps_unending (c : Chan) (d : Word) : Unending (setClearSteps c d) := by
  unfold setClearSteps
  split <;> simp [rewriteCctl, Act.ends]

theorem setStoreSteps_unending (c : Chan) (d : Word) : Unending (setStoreSteps c d) := by
  unfold setStoreSteps
  split <;> simp [rewriteCctl, Act.ends]

theorem initChanSteps_unending (c : Chan) (g : CfgChan) : Unending (initChanSteps c g) := by
  simp [initChanSteps, setLoadSteps_unending, setClearSteps_unending, setStoreSteps_unending, setModeSteps,
    setTstartSteps, setCompaSteps, setCompbSteps, setCompirqSteps, setCbirqSteps, setLbirqSteps, setXirqSteps,
    setReadmodeSteps, setReadtoutSteps, setWritemodeSteps, rewriteCctl, rewriteIctl, writePair, Act.ends]

/-- From any state, the micro-steps bring `k` in order. -/
abbrev Fixes (G : State → State → Prop) (k : Facet) (ms : List Micro) : Prop := Settles G k (fun _ => True) ms

/-- The registers of a channel that i3 of INIT writes (R206). -/
def initialisedRegs (c : Chan) : List Reg := [.cntctl c, .cmpaLo c, .cmpaHi c, .cmpbLo c, .cmpbHi c, .intctl c]

/-- The part of i3 of INIT after its first write of INTCTL (R206). -/
def initPolicySteps (c : Chan) (g : CfgChan) : List Micro :=
  setCbirqSteps c g.cbirq ++ (setLbirqSteps c g.lben ++ (setXirqSteps c g.xen ++
    (setReadmodeSteps c g.rdmode ++ (setReadtoutSteps c g.rdtout ++ setWritemodeSteps c g.wrmode))))

/-- i5 and i6 of INIT (R206). -/
def initEnableSteps (p : CfgPort) : List Micro :=
  setIrqenSteps .chA p.chans.a.ien ++ (setIrqenSteps .chB p.chans.b.ien ++
    (setIrqenSteps .chC p.chans.c.ien ++ (setIrqenSteps .chD p.chans.d.ien ++ [Act.goLive.always])))

/-- i4 to i6 of INIT (R206). -/
def initOutputSteps (p : CfgPort) : List Micro :=
  setOutmodeSteps p.outMode ++ (setOutsetSteps p.outSet ++ initEnableSteps p)

/-- i3 to i6 of INIT (R206). -/
def initBodySteps (p : CfgPort) : List Micro :=
  initChanSteps .chA p.chans.a ++ (initChanSteps .chB p.chans.b ++ (initChanSteps .chC p.chans.c ++
    (initChanSteps .chD p.chans.d ++ initOutputSteps p)))

/-- INIT's list in its parts. -/
theorem initSteps_eq (p : CfgPort) :
    initSteps p = [Act.zeroCtl.always, (Act.write .selftest (.const 0)).always] ++ initBodySteps p := rfl

theorem initPolicySteps_keeps (c : Chan) (g : CfgChan) : Keeps G k (initPolicySteps c g) :=
  (setCbirqSteps_keeps c _).append ((setLbirqSteps_keeps c _).append ((setXirqSteps_keeps c _).append
    ((setReadmodeSteps_keeps c _).append ((setReadtoutSteps_keeps c _).append (setWritemodeSteps_keeps c _)))))

theorem initChanSteps_keeps (c : Chan) (g : CfgChan) : Keeps SameGrounds k (initChanSteps c g) :=
  (setModeSteps_keeps c _).append ((setLoadSteps_keeps c _).append ((setClearSteps_keeps c _).append
    ((setStoreSteps_keeps c _).append ((setTstartSteps_keeps c _).append ((setCompaSteps_keeps c _).append
      ((setCompbSteps_keeps c _).append ((setCompirqSteps_keeps c _).append (initPolicySteps_keeps c g))))))))

/-- i3 of INIT brings every mirrored register of its channel in agreement with its mirror (R206, R46). -/
theorem initChanSteps_fixes (c : Chan) (g : CfgChan) {r : Reg} (hr : r ∈ initialisedRegs c) :
    Fixes SameGrounds (.register r) (initChanSteps c g) := by
  have always : Guard.always.Lasts SameGrounds := Guard.lasts_always
  have compirq : ∀ {k}, Keeps SameGrounds k (setCompirqSteps c g.cmpirq ++ initPolicySteps c g) :=
    fun {_} => (setCompirqSteps_keeps c g.cmpirq).append (initPolicySteps_keeps c g)
  have compb : ∀ {k}, Keeps SameGrounds k (setCompbSteps c g.cmpB ++ (setCompirqSteps c g.cmpirq ++
      initPolicySteps c g)) := fun {_} => (setCompbSteps_keeps c g.cmpB).append compirq
  have conditions : Unending (setModeSteps c g.mode) ∧ Unending (setLoadSteps c g.ldc) ∧
      Unending (setClearSteps c g.clc) ∧ Unending (setStoreSteps c g.stc) ∧ Unending (setTstartSteps c g.tst) :=
    ⟨by simp [setModeSteps, rewriteCctl, Act.ends], setLoadSteps_unending c _, setClearSteps_unending c _,
      setStoreSteps_unending c _, by simp [setTstartSteps, rewriteCctl, Act.ends]⟩
  obtain ⟨emode, eload, eclear, estore, etstart⟩ := conditions
  have afterConditions : ∀ {k ns}, Fixes SameGrounds k ns → Fixes SameGrounds k (setModeSteps c g.mode ++
      (setLoadSteps c g.ldc ++ (setClearSteps c g.clc ++ (setStoreSteps c g.stc ++
        (setTstartSteps c g.tst ++ ns))))) :=
    fun h => ((((h.after etstart).after estore).after eclear).after eload).after emode
  have ecompa : Unending (setCompaSteps c g.cmpA) := by simp [setCompaSteps, writePair, Act.ends]
  have ecompb : Unending (setCompbSteps c g.cmpB) := by simp [setCompbSteps, writePair, Act.ends]
  have compaFixes : ∀ {r}, r = .cmpaLo c ∨ r = .cmpaHi c → Fixes SameGrounds (.register r) (setCompaSteps c g.cmpA) :=
    fun h => (setCmpA_settles always h).of_due_always
  have compbFixes : ∀ {r}, r = .cmpbLo c ∨ r = .cmpbHi c → Fixes SameGrounds (.register r) (setCompbSteps c g.cmpB) :=
    fun h => (setCmpB_settles always h).of_due_always
  simp only [initialisedRegs, List.mem_cons, List.not_mem_nil, or_false] at hr
  obtain rfl | rfl | rfl | rfl | rfl | rfl := hr
  · have mode : Fixes SameGrounds (.register (.cntctl c)) (setModeSteps c g.mode) :=
      (due_store always rfl rfl (by simp [Src.mirrors])).of_due_always
    exact mode.append ((setLoadSteps_keeps c _).append ((setClearSteps_keeps c _).append
      ((setStoreSteps_keeps c _).append ((setTstartSteps_keeps c _).append
        ((setCompaSteps_keeps c _).append compb)))))
  · exact afterConditions ((compaFixes (.inl rfl)).append compb)
  · exact afterConditions ((compaFixes (.inr rfl)).append compb)
  · exact afterConditions (((compbFixes (.inl rfl)).append compirq).after ecompa)
  · exact afterConditions (((compbFixes (.inr rfl)).append compirq).after ecompa)
  · have field : Fixes SameGrounds (.register (.intctl c)) (setCompirqSteps c g.cmpirq) :=
      (due_store always rfl rfl (by simp [Src.mirrors])).of_due_always
    exact afterConditions (((field.append (initPolicySteps_keeps c g)).after ecompb).after ecompa)

theorem initEnableSteps_keeps (p : CfgPort) : Keeps G k (initEnableSteps p) :=
  (setIrqenSteps_keeps _ _).append ((setIrqenSteps_keeps _ _).append ((setIrqenSteps_keeps _ _).append
    ((setIrqenSteps_keeps _ _).append (.cons .nil (Act.disturbs_none (fun _ => rfl) (fun _ => rfl) rfl)))))

theorem initOutputSteps_keeps (p : CfgPort) : Keeps G k (initOutputSteps p) :=
  (setOutmodeSteps_keeps _).append ((setOutsetSteps_keeps _).append (initEnableSteps_keeps p))

/-- The registers that i4 of INIT writes. -/
theorem initOutputSteps_fixes (p : CfgPort) {r : Reg} (hr : r = .outctl0 ∨ r = .outctl1 ∨ r = .outcfg) :
    Fixes G (.register r) (initOutputSteps p) := by
  have always : Guard.always.Lasts G := Guard.lasts_always
  have tail : ∀ {k}, Keeps G k (setOutsetSteps p.outSet ++ initEnableSteps p) :=
    fun {_} => (setOutsetSteps_keeps p.outSet).append (initEnableSteps_keeps p)
  have high : ∀ {k}, Keeps G k [(Act.setOctl1 (hi16 p.outMode)).always, (Act.write .outctl1 .octl1).always] :=
    fun {_} => keeps_field always rfl rfl (fun _ => rfl) (fun _ => rfl) rfl rfl
  obtain rfl | rfl | rfl := hr
  · have low : Fixes G (.register .outctl0)
        [(Act.setOctl0 (lo16 p.outMode)).always, (Act.write .outctl0 .octl0).always] :=
      (due_store always rfl rfl rfl).of_due_always
    exact low.append (high.append tail)
  · have highFixes : Fixes G (.register .outctl1)
        [(Act.setOctl1 (hi16 p.outMode)).always, (Act.write .outctl1 .octl1).always] :=
      (due_store always rfl rfl rfl).of_due_always
    exact (highFixes.append tail).after
      (ms := [(Act.setOctl0 (lo16 p.outMode)).always, (Act.write .outctl0 .octl0).always]) (by simp [Act.ends])
  · have outset : Fixes G (.register .outcfg) (setOutsetSteps p.outSet) :=
      (due_store always rfl rfl rfl).of_due_always
    exact (outset.append (initEnableSteps_keeps p)).after (by simp [setOutmodeSteps, Act.ends])

theorem initBodySteps_keeps (p : CfgPort) : Keeps SameGrounds k (initBodySteps p) :=
  (initChanSteps_keeps _ _).append ((initChanSteps_keeps _ _).append ((initChanSteps_keeps _ _).append
    ((initChanSteps_keeps _ _).append (initOutputSteps_keeps p))))

/-- The registers that i3 and i4 of INIT write (R206). -/
theorem initBodySteps_fixes (p : CfgPort) {r : Reg}
    (hr : (∃ c, r ∈ initialisedRegs c) ∨ r = .outctl0 ∨ r = .outctl1 ∨ r = .outcfg) :
    Fixes SameGrounds (.register r) (initBodySteps p) := by
  have fromD : ∀ {k}, Keeps SameGrounds k (initChanSteps .chD p.chans.d ++ initOutputSteps p) :=
    fun {_} => (initChanSteps_keeps _ _).append (initOutputSteps_keeps p)
  have fromC : ∀ {k}, Keeps SameGrounds k (initChanSteps .chC p.chans.c ++ (initChanSteps .chD p.chans.d ++
      initOutputSteps p)) := fun {_} => (initChanSteps_keeps _ _).append fromD
  have passA : ∀ {k ns}, Fixes SameGrounds k ns → Fixes SameGrounds k (initChanSteps .chA p.chans.a ++ ns) :=
    fun h => h.after (initChanSteps_unending _ _)
  have passB : ∀ {k ns}, Fixes SameGrounds k ns → Fixes SameGrounds k (initChanSteps .chB p.chans.b ++ ns) :=
    fun h => h.after (initChanSteps_unending _ _)
  have passC : ∀ {k ns}, Fixes SameGrounds k ns → Fixes SameGrounds k (initChanSteps .chC p.chans.c ++ ns) :=
    fun h => h.after (initChanSteps_unending _ _)
  obtain ⟨c, hr⟩ | hr := hr
  · cases c with
    | chA => exact (initChanSteps_fixes _ _ hr).append ((initChanSteps_keeps _ _).append fromC)
    | chB => exact passA ((initChanSteps_fixes _ _ hr).append fromC)
    | chC => exact passA (passB ((initChanSteps_fixes _ _ hr).append fromD))
    | chD => exact passA (passB (passC ((initChanSteps_fixes _ _ hr).append (initOutputSteps_keeps p))))
  · exact passA (passB (passC ((initOutputSteps_fixes p hr).after (initChanSteps_unending _ _))))

/-- A register without a mirror is in order by itself. -/
theorem RegMirrored.of_free {r : Reg} (h : hasMirror r = false) (s : State) : RegMirrored r s := by
  cases r with
  | preLo | preHi | cntLo | cntHi | pend0 | pend1 => trivial
  | _ => cases h

/-- i1 and i2 of INIT: CTL in its zero state, SELFTEST written with 0 (R206). -/
theorem initStart_fixes {k : Facet} (hk : k ≠ .unmasked)
    (hr : ∀ r, k = .register r → hasMirror r = false ∨ r = .selftest) :
    Fixes SameGrounds k [Act.zeroCtl.always, (Act.write .selftest (.const 0)).always] := by
  have always : Guard.always.Lasts SameGrounds := Guard.lasts_always
  by_cases hs : k = .register .selftest
  · subst hs
    refine Settles.of_due_always (Settles.due_cons (g := .always) (Y := fun s => s.stest = 0) ?_ always
      (fun _ _ _ _ => trivial) rfl fun s t _ h => ⟨rfl, by cases h; rfl⟩)
    exact Settles.due_mend .nil always (fun s t h e => h.stest.trans e) rfl fun s t hwf e h =>
      write_const_mirrored hwf h (.inr ⟨rfl, e.symm⟩)
  · refine Settles.of_due_always (Keeps.due_mend (a := .zeroCtl) (.cons .nil (write_undisturbing hs)) always rfl ?_)
    intro s t _ h
    cases h
    cases k with
    | register r =>
      obtain h | rfl := hr r rfl
      · exact RegMirrored.of_free h _
      · exact absurd rfl hs
    | shadow c => simp [Facet.Holds, ShadowHolds, ChanRec.zero]
    | domains => exact .zeroCtl s
    | unmasked => exact absurd rfl hk

/-- Every register has no mirror, or INIT writes it. -/
theorem reg_cases (r : Reg) :
    (hasMirror r = false ∨ r = .selftest) ∨ (∃ c, r ∈ initialisedRegs c) ∨ r = .outctl0 ∨ r = .outctl1 ∨ r = .outcfg := by
  cases r with
  | cntctl c | cmpaLo c | cmpaHi c | cmpbLo c | cmpbHi c | intctl c =>
    exact .inr (.inl ⟨c, by simp [initialisedRegs]⟩)
  | _ => simp [hasMirror]

/-- INIT brings everything in order that R44 speaks of, whatever it finds (R46, R206). -/
theorem initSteps_fixes (p : CfgPort) (hk : k ≠ .unmasked) : Fixes SameGrounds k (initSteps p) := by
  rw [initSteps_eq]
  by_cases start : ∀ r, k = .register r → hasMirror r = false ∨ r = .selftest
  · exact (initStart_fixes hk start).append (initBodySteps_keeps p)
  · push Not at start
    obtain ⟨r, rfl, hm, hs⟩ := start
    obtain h | h := reg_cases r
    · exact absurd h (by simp [hm, hs])
    · exact (initBodySteps_fixes p h).after (by simp [Act.ends])

/-- INIT closes every masked section it opens. -/
theorem initSteps_unmasked (p : CfgPort) : Keeps SameGrounds .unmasked (initSteps p) := by
  rw [initSteps_eq]
  exact Settles.append (Keeps.cons (Keeps.cons .nil rfl) rfl) (initBodySteps_keeps p)

end

end Sys2Proof.Machine

/-!
PROOFS. The handler's list, the invariant between micro-steps, and that every step keeps it (O56).
-/

namespace Sys2Proof.Machine

/-! ### The handler -/

section
variable {k : Facet}

/-- The action disturbs no part of the block. -/
def Act.harmless (a : Act) : Bool :=
  (Reg.all.all fun r => !a.dirties r) && (Chan.all.all fun c => !a.disables c) && !a.opensMask

theorem Act.disturbs_of_harmless {a : Act} (h : a.harmless = true) : a.disturbs k = false := by
  simp only [Act.harmless, Bool.and_eq_true, List.all_eq_true, Bool.not_eq_true'] at h
  obtain ⟨⟨hr, hs⟩, hm⟩ := h
  exact Act.disturbs_none (fun q => hr q (Reg.mem_all q)) (fun c => hs c (Chan.mem_all c)) hm

theorem Keeps.of_harmless {G : State → State → Prop} {ms : List Micro}
    (h : ∀ m ∈ ms, m.act.harmless = true) : Keeps G k ms :=
  .of_undisturbed fun m hm => Act.disturbs_of_harmless (h m hm)

/-- The teardown rewrites INTCTL[A] after each change of the record of channel A (R170). -/
theorem teardownSteps_keeps : Keeps SameHandler k teardownSteps :=
  (writePair_free rfl rfl).append ((writePair_free rfl rfl).append
    ((keeps_field Guard.lasts_teardown rfl rfl (fun _ => rfl) (fun _ => rfl) rfl rfl).append
      ((ienOffSteps_keeps Guard.lasts_teardown .chA).append (.of_harmless (by decide)))))

/-- An invocation leaves in order what it found in order (R233 to R241). -/
theorem handlerSteps_keeps : Keeps SameHandler k handlerSteps := by
  have recompute : Keeps SameHandler k recomputeSteps := .of_harmless (by decide)
  have perEdge : Keeps SameHandler k perEdgeSteps :=
    Settles.append (Keeps.of_harmless (by decide)) (recompute.append teardownSteps_keeps)
  exact Settles.append (Keeps.of_harmless (by decide)) (perEdge.append (.of_harmless (by decide)))

end

/-! ## The invariant between micro-steps -/

/-- What is in order when the command's list is next, whatever the handler and the CORE have done since the command's
last micro-step left `s₀`: from `s₀` on the command's list leaves `k` in order, and if `k` was in order there, the
handler's list leaves it so now. -/
def InOrder (k : Facet) (s : State) : Prop :=
  ∃ s₀, Restores SameGrounds k s.prog s₀ ∧ SameGrounds s₀ s ∧ (k.Holds s₀ → Restores SameHandler k s.hprog s)

/-- The facets that are of concern: the mask always, the others while live, and while INIT is bringing the block up
(R44). -/
def Watched (k : Facet) (s : State) : Prop := k = .unmasked ∨ s.live = true ∨ ∃ m ∈ s.prog, m.act = .goLive

/-- The invariant of R44 between micro-steps. -/
structure MirrorInv (s : State) : Prop where
  wf : s.par.Wf
  context : s.ContextInv
  inDomain : ∀ m ∈ s.prog, m.act.inDomain = true
  once : ∀ m ∈ s.prog, m.act = .goDown → m.guard = .always ∧ ∀ n ∈ s.prog, n.act ≠ .goLive
  facets : ∀ k, Watched k s → InOrder k s

section
variable {k : Facet} {s t : State} {m : Micro} {rest : List Micro}

/-- Events of the environment that leave the lists and what they go by. -/
theorem InOrder.env (h : InOrder k s) (hp : t.prog = s.prog) (hq : t.hprog = s.hprog) (hg : SameGrounds s t)
    (hr : Rely SameHandler k s t) : InOrder k t := by
  obtain ⟨s₀, hc, hs, hh⟩ := h
  exact ⟨s₀, by rwa [hp], hs.trans hg, fun hk => by rw [hq]; exact (hh hk).rely SameHandler.trans hr⟩

theorem inOrder_of_idle (hp : s.prog = []) (hq : s.hprog = []) : InOrder k s ↔ k.Holds s := by
  constructor
  · rintro ⟨s₀, hc, -, hh⟩
    rw [hp] at hc
    rw [hq] at hh
    exact hh hc
  · intro h
    exact ⟨s, by rwa [hp], .refl s, fun _ => by rwa [hq]⟩

theorem handlerSteps_fits (hm : m ∈ handlerSteps) : m.act.Fits k := by
  have facts : ∀ m ∈ handlerSteps, m.act.inDomain = true ∧ m.act ≠ .goDown := by decide
  obtain ⟨hd, hn⟩ := facts m hm
  exact ⟨hd, .inr hn⟩

theorem handlerSteps_steady (hm : m ∈ handlerSteps) : m.act.steady = true ∧ m.act.setsLive = false := by
  revert m
  decide

theorem Micro.run_sameGrounds (hm : m.act.steady = true) (h : m.run s = .cont t) : SameGrounds s t := by
  obtain ⟨-, rfl⟩ | ⟨-, ha⟩ := Micro.run_cont h
  · exact .refl _
  · exact Act.run_steady hm ha

theorem Micro.run_live (hm : m.act.setsLive = false) (h : m.run s = .cont t) : t.live = s.live := by
  obtain ⟨-, rfl⟩ | ⟨-, ha⟩ := Micro.run_cont h
  · rfl
  · exact Act.run_live hm ha

/-- A micro-step of the handler. -/
theorem InOrder.handler (hwf : s.par.Wf) (hm : m ∈ handlerSteps) (h : InOrder k (s.setPosition .irq (m :: rest)))
    (ht : takeMicro .irq m rest s = .next t) : InOrder k t := by
  obtain ⟨s₀, hc, hs, hh⟩ := id h
  have here : SameGrounds s₀ s := hs.trans (.of_eq rfl rfl rfl rfl)
  have now : Rely SameHandler k (s.setPosition .irq (m :: rest)) s := ⟨hwf, rfl, fun h => h.of_eq rfl⟩
  obtain ⟨u, hu, rfl⟩ | ⟨u, hu, rfl⟩ | ⟨-, rfl⟩ := takeMicro_cases ht
  · obtain ⟨eprog, -, -, epar⟩ := Micro.run_place hu
    obtain ⟨hsteady, -⟩ := handlerSteps_steady hm
    refine ⟨s₀, by simpa [eprog] using hc,
      (here.trans (Micro.run_sameGrounds hsteady hu)).trans (.of_eq rfl rfl rfl rfl), fun hk => ?_⟩
    obtain ⟨-, next⟩ := hh hk s now
    have moved : Rely SameHandler k u (u.setPosition .irq rest) :=
      ⟨by rw [setIrqPosition_par, epar]; exact hwf, rfl, fun h => h.of_eq rfl⟩
    exact (next u hu (handlerSteps_fits hm)).rely SameHandler.trans moved
  · obtain ⟨hends, honly, -⟩ | ⟨hends, -, result, rfl⟩ := Act.run_ended (Micro.run_ended hu)
    · rw [handlerSteps_ends m hm hends] at honly
      cases honly
    · refine ⟨s₀, hc, here.trans (.of_eq rfl rfl rfl rfl), fun hk => ?_⟩
      obtain ⟨last, -⟩ := hh hk s now
      exact (last hends).of_eq rfl
  · exact h

/-- A micro-step of the command, with no invocation in progress. -/
theorem InOrder.command (hwf : s.par.Wf) (hq : s.hprog = []) (hf : ∀ u, m.run s = .cont u → m.act.Fits k)
    (honly : m.act.handlerOnly = false) (h : InOrder k (s.setPosition .host (m :: rest)))
    (ht : takeMicro .host m rest s = .next t) : InOrder k t := by
  obtain ⟨s₀, hc, hs, hh⟩ := id h
  rw [setHostPosition_hprog, hq] at hh
  have now : Rely SameGrounds k s₀ s :=
    ⟨hwf, hs.trans (.of_eq rfl rfl rfl rfl), fun hk => (show k.Holds _ from hh hk).of_eq rfl⟩
  obtain ⟨last, next⟩ := hc s now
  obtain ⟨u, hu, rfl⟩ | ⟨u, hu, rfl⟩ | ⟨-, rfl⟩ := takeMicro_cases ht
  · obtain ⟨-, ehprog, -, -⟩ := Micro.run_place hu
    refine ⟨u, next u hu (hf u hu), .of_eq rfl rfl rfl rfl, fun hk => ?_⟩
    rw [setHostPosition_hprog, ehprog, hq]
    exact hk.of_eq rfl
  · obtain ⟨hends, -, code, v, rfl⟩ | ⟨-, h', -⟩ := Act.run_ended (Micro.run_ended hu)
    · exact (inOrder_of_idle (s := (s.respond code v).setPosition .host []) rfl hq).mpr ((last hends).of_eq rfl)
    · rw [honly] at h'
      cases h'
  · exact h

/-! ### Every micro-step and every event keep it -/

theorem MirrorInv.handler (h : MirrorInv (s.setPosition .irq (m :: rest)))
    (ht : takeMicro .irq m rest s = .next t) : MirrorInv t := by
  obtain ⟨hwf, hctx, hdom, honce, hfacets⟩ := h
  have hm : m ∈ handlerSteps := hctx.place.subset (List.mem_cons_self ..)
  have same : t.prog = s.prog ∧ t.live = s.live ∧ t.par = s.par := by
    obtain ⟨u, hu, rfl⟩ | ⟨u, hu, rfl⟩ | ⟨-, rfl⟩ := takeMicro_cases ht
    · obtain ⟨eprog, -, -, epar⟩ := Micro.run_place hu
      have elive : u.live = s.live := Micro.run_live (handlerSteps_steady hm).2 hu
      exact ⟨eprog, elive, epar⟩
    · obtain ⟨-, -, code, v, rfl⟩ | ⟨-, -, result, rfl⟩ := Act.run_ended (Micro.run_ended hu)
      · exact ⟨rfl, rfl, rfl⟩
      · exact ⟨rfl, rfl, rfl⟩
    · exact ⟨rfl, rfl, rfl⟩
  obtain ⟨eprog, elive, epar⟩ := same
  refine ⟨by rw [epar]; exact hwf, contexts_handler hctx ht, by rw [eprog]; exact hdom, by rw [eprog]; exact honce,
    fun k hk => InOrder.handler (s := s) hwf hm (hfacets k ?_) ht⟩
  rwa [Watched, eprog, elive] at hk

/-- What is watched after a micro-step of the command was watched before it; if it is more than the mask, the
micro-step did not end the live window. -/
theorem watched_before (hu : m.run s = .cont t)
    (honce : ∀ n ∈ m :: rest, n.act = .goDown → n.guard = .always ∧ ∀ n' ∈ m :: rest, n'.act ≠ .goLive)
    (hk : Watched k (t.setPosition .host rest)) :
    Watched k (s.setPosition .host (m :: rest)) ∧ (k = .unmasked ∨ m.act ≠ .goDown) := by
  obtain rfl | hk := hk
  · exact ⟨.inl rfl, .inl rfl⟩
  by_cases hdown : m.act = .goDown
  · obtain ⟨hg, hn⟩ := honce m (List.mem_cons_self ..) hdown
    have eu : Act.goDown.run s = .cont t := by
      obtain ⟨hf, -⟩ | ⟨-, ha⟩ := Micro.run_cont hu
      · rw [hg] at hf
        cases hf
      · rwa [hdown] at ha
    cases eu
    obtain hl | ⟨n, hmem, e⟩ := hk
    · cases hl
    · exact absurd e (hn n (List.mem_cons_of_mem _ hmem))
  · refine ⟨.inr ?_, .inr hdown⟩
    by_cases hup : m.act = .goLive
    · exact .inr ⟨m, List.mem_cons_self .., hup⟩
    have hset : m.act.setsLive = false := by
      revert hdown hup
      cases m.act <;> simp [Act.setsLive]
    exact hk.imp (fun hl => (Micro.run_live hset hu).symm.trans hl)
      fun ⟨n, hmem, e⟩ => ⟨n, List.mem_cons_of_mem _ hmem, e⟩

/-- The handler never waits: no invocation is in progress when the command is next. -/
theorem hprog_of_rests (hplace : s.hprog <:+ handlerSteps) (hr : s.HandlerRests) : s.hprog = [] := by
  obtain h | ⟨m, hm, c, e⟩ := hr
  · exact h
  · have := handlerSteps_ends m (hplace.subset hm) (by rw [e]; rfl)
    rw [e] at this
    cases this

theorem MirrorInv.command (hr : s.HandlerRests) (h : MirrorInv (s.setPosition .host (m :: rest)))
    (ht : takeMicro .host m rest s = .next t) : MirrorInv t := by
  obtain ⟨hwf, hctx, hdom, honce, hfacets⟩ := id h
  have hq : s.hprog = [] := hprog_of_rests (s := s) hctx.place hr
  obtain ⟨hm, hrest⟩ := List.forall_mem_cons.mp hdom
  have honly : m.act.handlerOnly = false := hctx.separate m (List.mem_cons_self ..)
  obtain ⟨u, hu, rfl⟩ | ⟨u, hu, rfl⟩ | ⟨-, rfl⟩ := takeMicro_cases ht
  · obtain ⟨-, -, -, epar⟩ := Micro.run_place hu
    refine ⟨by rw [setHostPosition_par, epar]; exact hwf, contexts_command hctx ht, hrest, fun n hn e => ?_,
      fun k hk => ?_⟩
    · obtain ⟨hg, hup⟩ := honce n (List.mem_cons_of_mem _ hn) e
      exact ⟨hg, fun n' hn' => hup n' (List.mem_cons_of_mem _ hn')⟩
    · obtain ⟨hb, hf⟩ := watched_before hu honce hk
      exact InOrder.command (s := s) hwf hq (fun _ _ => ⟨hm, hf⟩) honly (hfacets k hb) ht
  · obtain ⟨-, -, code, v, rfl⟩ | ⟨-, h', -⟩ := Act.run_ended (Micro.run_ended hu)
    · refine ⟨hwf, contexts_command hctx ht, by simp, by simp, fun k hk => ?_⟩
      have hb : Watched k (s.setPosition .host (m :: rest)) :=
        hk.imp_right fun hk => .inl (hk.resolve_right (by simp))
      exact InOrder.command (s := s) hwf hq (fun u hu' => by rw [hu] at hu'; cases hu') honly (hfacets k hb) ht
    · rw [honly] at h'
      cases h'
  · exact h

/-- The CORE changes no register with a mirror (R43). -/
theorem Facet.Holds.core (e : CoreEvent) (h : k.Holds s) : k.Holds (coreStep e s) := by
  obtain e | ⟨c, n, l, p, g, e, -⟩ := coreStep_cases e s <;> rw [e]
  · exact h
  · cases k with
    | register r => exact RegMirrored.modHw_hidden h fun _ => rfl
    | domains => exact ⟨h.records, h.offset⟩
    | shadow c => exact h
    | unmasked => exact h

theorem coreStep_grounds (e : CoreEvent) (s : State) :
    SameGrounds s (coreStep e s) ∧ (coreStep e s).hloc = s.hloc ∧ (coreStep e s).par = s.par := by
  obtain e | ⟨c, n, l, p, g, e, -⟩ := coreStep_cases e s <;> rw [e]
  · exact ⟨.refl s, rfl, rfl⟩
  · exact ⟨.of_eq rfl rfl rfl rfl, rfl, rfl⟩

/-- Events that leave the lists, the locals, `live` and what is in order. -/
theorem MirrorInv.env (h : MirrorInv s) (hp : t.prog = s.prog) (hq : t.hprog = s.hprog) (hl : t.live = s.live)
    (hpar : t.par = s.par) (hi : t.inh = s.inh) (hloc : t.hloc = s.hloc) (hg : SameGrounds s t)
    (ho : ∀ k : Facet, k.Holds s → k.Holds t) : MirrorInv t := by
  obtain ⟨hwf, hctx, hdom, honce, hfacets⟩ := h
  have wf : t.par.Wf := by rw [hpar]; exact hwf
  refine ⟨wf, hctx.of_same hp hq hi, by rw [hp]; exact hdom, by rw [hp]; exact honce, fun k hk => ?_⟩
  rw [Watched, hp, hl] at hk
  exact (hfacets k hk).env hp hq hg ⟨wf, hloc, ho k⟩

/-- An invocation that begins (R233). -/
theorem MirrorInv.enter (h : MirrorInv s) (hi : s.inh = false) : MirrorInv (s.enterHandler handlerSteps) := by
  obtain ⟨hwf, hctx, hdom, honce, hfacets⟩ := h
  have hq : s.hprog = [] := by
    have := hctx.inside
    simpa [hi] using this
  refine ⟨hwf, ⟨List.suffix_rfl, by simp [handlerSteps], hctx.separate⟩, hdom, honce, fun k hk => ?_⟩
  obtain ⟨s₀, hc, hs, hh⟩ := hfacets k hk
  rw [hq] at hh
  refine ⟨s₀, hc, hs.trans (.of_eq rfl rfl rfl rfl), fun h₀ => ?_⟩
  have now : k.Holds (s.enterHandler handlerSteps) := (show k.Holds s from hh h₀).of_eq rfl
  have := handlerSteps_keeps (k := k) [] (fun _ ht => ht) _ now
  rwa [List.append_nil] at this

/-- The timer ends READ's wait, which is in order (R111). -/
theorem MirrorInv.timeout (h : MirrorInv s) : MirrorInv (timeoutStep s) := by
  obtain e | ⟨g, c, rest, hq, hp, -, -, e⟩ := timeoutStep_cases s
  · rw [e]
    exact h
  have hctx := contexts_kept.timeout h.context
  rw [e] at hctx ⊢
  refine ⟨h.wf, hctx, by simp, by simp, fun k hk => ?_⟩
  have hb : Watched k s := hk.imp_right fun hk => .inl (hk.resolve_right (by simp))
  obtain ⟨s₀, hc, hs, hh⟩ := h.facets k hb
  rw [hp] at hc
  rw [hq] at hh
  obtain ⟨last, -⟩ := hc s ⟨h.wf, hs, hh⟩
  exact (inOrder_of_idle (s := { s.raise timedOut with prog := [] }) rfl hq).mpr ((last rfl).of_eq rfl)

theorem mirrorInv_kept : Kept MirrorInv where
  handler := MirrorInv.handler
  command := MirrorInv.command
  core {s} e h := by
    obtain ⟨-, -, hl, hp, hq⟩ := coreStep_same e s
    obtain ⟨hg, hloc, hpar⟩ := coreStep_grounds e s
    exact h.env hp hq hl hpar (coreStep_inh e s) hloc hg fun _ hk => hk.core e
  irq {s} h := by
    obtain ⟨-, e⟩ | ⟨hi, -, e⟩ | ⟨-, -, e⟩ := irqStep_cases s <;> rw [e]
    · exact h
    · simp only [Bool.or_eq_false_iff] at hi
      exact h.enter hi.2
    · exact h.env rfl rfl rfl rfl rfl rfl (.of_eq rfl rfl rfl rfl) fun _ hk => hk.of_eq rfl
  timeout := MirrorInv.timeout
  present _ h := h.env rfl rfl rfl rfl rfl rfl (.of_eq rfl rfl rfl rfl) fun _ hk => hk.of_eq rfl
  script _ h := h.env rfl rfl rfl rfl rfl rfl (.of_eq rfl rfl rfl rfl) fun _ hk => hk.of_eq rfl

/-! ### A command begins -/

theorem idle_iff : s.idle = true ↔ s.prog = [] ∧ s.hprog = [] := by
  simp [State.idle]

/-- No command both ends and begins the live window. -/
theorem microSteps_once {i : Instr} {p : CfgPort} (hm : m ∈ microSteps p i) (hd : m.act = .goDown) :
    m.guard = .always ∧ ∀ n ∈ microSteps p i, n.act ≠ .goLive := by
  have plainAct : ∀ {n : Micro}, n.plain = true → n.act.setsLive = false := fun h => by
    simp only [Micro.plain, Bool.and_eq_true, Bool.not_eq_true'] at h
    exact h.1.2
  obtain hp | ⟨-, rfl⟩ | ⟨he, rfl⟩ := microSteps_cases hm
  · have := plainAct hp
    rw [hd] at this
    cases this
  · cases hd
  · refine ⟨rfl, fun n hn e => ?_⟩
    obtain hp | ⟨hi, -⟩ | ⟨-, rfl⟩ := microSteps_cases hn
    · have := plainAct hp
      rw [e] at this
      cases this
    · rw [he] at hi
      cases hi
    · cases e

/-- The list of a command leaves in order what it finds in order, and INIT's list brings in order what it does not
(R44, R206). -/
theorem microSteps_restores {i : Instr} (p : CfgPort) (h : i = .init ∧ k ≠ .unmasked ∨ k.Holds s) :
    Restores SameGrounds k (microSteps p i) s := by
  have response : Keeps SameGrounds k [(Act.ret .zero).always] := .cons .nil ret_undisturbing
  have close : ∀ {P}, P s → Settles SameGrounds k P (microSteps p i) → Restores SameGrounds k (microSteps p i) s := by
    intro P hs hset
    have := hset [] (fun _ ht => ht) s hs
    rwa [List.append_nil] at this
  by_cases hi : i = .init
  · subst hi
    by_cases hk : k = .unmasked
    · subst hk
      exact close (h.resolve_left (by simp)) ((initSteps_unmasked p).append response)
    · exact close trivial ((initSteps_fixes p hk).append response)
  · exact close (h.resolve_left (by simp [hi])) (microSteps_keeps p hi)

theorem MirrorInv.begin {i : Instr} (hidle : s.idle = true) (h : MirrorInv s) (hl : s.live = true ↔ i ≠ .init)
    (hw : i.wellFormed = true) (hc : i = .init → cfgOk s.cfg = true) :
    MirrorInv { s with prog := microSteps s.cfg i } := by
  obtain ⟨hp, hq⟩ := idle_iff.mp hidle
  refine ⟨h.wf, contexts_stepKept.begin hidle h.context hl hw hc, microSteps_inDomain hw hc,
    fun _ => microSteps_once, fun k hk => ?_⟩
  have found : i = .init ∧ k ≠ .unmasked ∨ k.Holds s := by
    by_cases hi : i = .init ∧ k ≠ .unmasked
    · exact .inl hi
    · refine .inr ((inOrder_of_idle hp hq).mp (h.facets k ?_))
      by_cases hm : k = .unmasked
      · exact .inl hm
      · exact .inr (.inl (hl.mpr fun e => hi ⟨e, hm⟩))
  refine ⟨s, microSteps_restores s.cfg found, .of_eq rfl rfl rfl rfl, fun hk => ?_⟩
  change Restores SameHandler k s.hprog _
  rw [hq]
  exact hk.of_eq rfl

/-- A refused command is answered and changes nothing else (R85). -/
theorem MirrorInv.raise {code : BitVec 4} (hidle : s.idle = true) (h : MirrorInv s) : MirrorInv (s.raise code) := by
  obtain ⟨hp, hq⟩ := idle_iff.mp hidle
  exact ⟨h.wf, h.context.of_same rfl rfl rfl, h.inDomain, h.once, fun k hk =>
    (inOrder_of_idle (s := s.raise code) hp hq).mpr (((inOrder_of_idle hp hq).mp (h.facets k hk)).of_eq rfl)⟩

theorem mirrorInv_stepKept : StepKept MirrorInv where
  toKept := mirrorInv_kept
  issue _ h := h.env rfl rfl rfl rfl rfl rfl (.of_eq rfl rfl rfl rfl) fun _ hk => hk.of_eq rfl
  raise _ := MirrorInv.raise
  begin := MirrorInv.begin

/-! ### The invariant in an idle block -/

/-- In an idle block the invariant between micro-steps is that of R44. -/
theorem mirrorInv_iff_idleInv (hp : s.prog = []) (hq : s.hprog = []) : MirrorInv s ↔ s.IdleInv := by
  constructor
  · intro h
    have holds := fun k hk => (inOrder_of_idle hp hq).mp (h.facets k hk)
    refine ⟨h.wf, hp, hq, holds .unmasked (.inl rfl), ?_, fun hl => ?_⟩
    · have := h.context.inside
      simpa [hq] using this
    · exact ((mirrored_iff_facets s).mp fun k => holds k (.inr (.inl hl))).1
  · intro h
    refine ⟨h.wf, ⟨by rw [hq]; exact List.nil_suffix, by simp [h.outside, hq], by simp [hp]⟩, by simp [hp],
      by simp [hp], fun k hk => (inOrder_of_idle hp hq).mpr ?_⟩
    obtain rfl | hl | hn := hk
    · exact h.unmasked
    · exact (mirrored_iff_facets s).mpr ⟨h.mirrored hl, h.unmasked⟩ k
    · simp [hp] at hn

theorem StepKept.runs {J : State → Prop} (kept : StepKept J) {n : Nat} (hj : J s) (h : runs n s t) : J t := by
  induction n generalizing s with
  | zero =>
    obtain rfl : s = t := h
    exact hj
  | succ n ih =>
    obtain ⟨u, hu, hr⟩ := h
    exact ih (kept.step hj hu) hr

end

/-- Settles O56: between micro-steps, the micro-steps still to come put right what is out of step (`MirrorInv`). -/
theorem mirrorsAgreeWhenIdle : Obligations.MirrorsAgreeWhenIdle := by
  unfold Obligations.MirrorsAgreeWhenIdle
  intro n s t hs h hp hq
  exact (mirrorInv_iff_idleInv hp hq).mp
    (mirrorInv_stepKept.runs ((mirrorInv_iff_idleInv hs.noCommand hs.noHandler).mpr hs) h)

end Sys2Proof.Machine

/-!
PROOFS. The register file: writes of the storage registers (O38), of CNTCTL (O39) and of the pending-flag registers
(O40), and the accesses that have no meaning (O42). An access at the offset of a register is an access of that register
(`memWrite_offset`, `memRead_offset`); what is left is what the register itself does.
-/

namespace Sys2Proof.Machine

variable {s : State} {c : Chan} {v : Reg16}

/-! ## Storage registers (R57) -/

/-- Settles O38: each storage register is reached at its offset, and its write is the replacement of its contents. -/
theorem storageRegisterWrites : Obligations.StorageRegisterWrites := by
  unfold Obligations.StorageRegisterWrites
  intro s v c h
  exact ⟨memWrite_offset h (.cmpaLo c) v, memWrite_offset h (.cmpaHi c) v, memWrite_offset h (.cmpbLo c) v,
    memWrite_offset h (.cmpbHi c) v, memWrite_offset h (.preLo c) v, memWrite_offset h (.preHi c) v,
    memWrite_offset h (.intctl c) v, memWrite_offset h .outctl0 v, memWrite_offset h .outctl1 v,
    memWrite_offset h .outcfg v, memWrite_offset h .selftest v⟩

/-! ## CNTCTL (R58, R59) -/

/-- Two of the three force fields of a word are at their immediate codes (R38, R58). -/
def TwoImmediate (l : CctlLayout) (v : Reg16) : Prop :=
  (fieldGet l.fLoad v = 2 ∧ fieldGet l.fClr v = 2) ∨ (fieldGet l.fLoad v = 2 ∧ fieldGet l.fSto v = 1) ∨
    (fieldGet l.fClr v = 2 ∧ fieldGet l.fSto v = 1)

/-- The test `writeCntctl` makes before it writes. -/
theorem twoImmediate_iff (l : CctlLayout) (v : Reg16) :
    ((loadNow l v && clearNow l v) || (loadNow l v && storeNow l v) || (clearNow l v && storeNow l v)) = true ↔
      TwoImmediate l v := by
  simp only [TwoImmediate, loadNow, clearNow, storeNow, Bool.or_eq_true, Bool.and_eq_true, beq_iff_eq, or_assoc]

/-- A word with two immediate codes is refused (R58, U2). -/
theorem writeCntctl_refused (h : TwoImmediate s.par.cctl v) : writeCntctl c v s = .error .doubleForce :=
  if_pos ((twoImmediate_iff _ _).mpr h)

/-- Any other word is stored without TB and opens the gate if TB = 1; LOAD, CLR and STO at their immediate codes act on
the count and the latch (R38, R58, R59). -/
theorem writeCntctl_accepted (h : ¬ TwoImmediate s.par.cctl v) :
    writeCntctl c v s = .ok (s.modHw c fun x => { x with
      cntctl := v &&& ~~~(fieldMask s.par.cctl.fTb)
      tb := (s.hw.get c).tb || decide (fieldGet s.par.cctl.fTb v = 1)
      cnt := if fieldGet s.par.cctl.fLoad v = 2 then compose x.preLo x.preHi
        else if fieldGet s.par.cctl.fClr v = 2 then 0 else x.cnt
      lat := if fieldGet s.par.cctl.fSto v = 1 then x.cnt else x.lat }) := by
  have one := mt (twoImmediate_iff _ _).mp h
  simp only [writeCntctl, if_neg one]
  simp only [State.modHw, withoutTb, gateNow, loadNow, clearNow, storeNow, Bool.beq_eq_decide_eq,
    decide_eq_true_eq]

/-- Settles O39: two immediate codes are refused; with at most one, the word selects the one action that is left. -/
theorem cntctlWriteMeaning : Obligations.CntctlWriteMeaning := by
  unfold Obligations.CntctlWriteMeaning
  intro s v c h
  simp only [memWrite_offset h, writeReg]
  refine ⟨writeCntctl_refused, fun hl hc hs => ?_, fun hl hc hs => ?_, fun hl hc hs => ?_, fun hl hc hs => ?_⟩
  all_goals
    have one : ¬ TwoImmediate s.par.cctl v := by
      simp only [TwoImmediate, hl, hc, hs, and_false, false_and, or_false, not_false_eq_true]
    simp only [writeCntctl_accepted one, hl, hc, hs, ↓reduceIte]

/-! ## PEND0 and PEND1 (R60) -/

/-- Clearing flags of one channel leaves the rest of every channel's hardware. -/
theorem clearFlags_get (d : Chan) (v : Reg16) (s : State) (c : Chan) :
    (clearFlags d v s).hw.get c = { s.hw.get c with pend := ((clearFlags d v s).hw.get c).pend } := by
  rw [clearFlags, modHw_get]
  split <;> rfl

/-- A flag stays set unless its own bit is written as one. -/
theorem getLsbD_clearFlags (d : Chan) (v : Reg16) (s : State) (c : Chan) {k : Nat} (hk : k < 5) :
    ((clearFlags d v s).hw.get c).pend.getLsbD k =
      ((s.hw.get c).pend.getLsbD k && !(c == d && v.getLsbD (s.par.pend.sh.get c + k))) := by
  rw [clearFlags, modHw_get]
  by_cases hd : c = d
  · subst hd
    rw [if_pos rfl, BitVec.getLsbD_and, BitVec.getLsbD_not, getLsbD_takeFlags]
    simp only [hk, decide_true, Bool.true_and, beq_self_eq_true]
  · simp [hd]

/-- A write to the pending-flag register of channels `d` and `e` clears the flags of these two whose bits are written
as one, and changes nothing else. -/
theorem memWrite_pend {r : Reg} {d e : Chan} (h : s.par.Wf)
    (hr : writeReg r v s = .ok (clearFlags e v (clearFlags d v s))) :
    ∃ t, memWrite (s.par.regmap.offset r) 2 v s = .ok t ∧ t = { s with hw := t.hw } ∧
      ∀ c, t.hw.get c = { s.hw.get c with pend := (t.hw.get c).pend } ∧
        ∀ k, k < 5 → (t.hw.get c).pend.getLsbD k =
          ((s.hw.get c).pend.getLsbD k && !((c == d || c == e) && v.getLsbD (s.par.pend.sh.get c + k))) := by
  refine ⟨_, (memWrite_offset h r v).trans hr, rfl, fun c => ⟨?_, fun k hk => ?_⟩⟩
  · rw [clearFlags_get e, clearFlags_get d]
  · have layout : (clearFlags d v s).par = s.par := rfl
    rw [getLsbD_clearFlags e v _ c hk, getLsbD_clearFlags d v s c hk, layout, Bool.and_assoc, ← Bool.not_or,
      ← Bool.and_or_distrib_right]

/-- Settles O40: both registers at once, each with its two channels. -/
theorem pendingWriteOneToClear : Obligations.PendingWriteOneToClear := by
  unfold Obligations.PendingWriteOneToClear
  intro s v h
  exact ⟨memWrite_pend h rfl, memWrite_pend h rfl⟩

/-! ## Accesses with no meaning (R55, R56, R61) -/

/-- An offset that REGMAP gives no register (R55). -/
theorem regAt_eq_none {m : RegMap} {addr : Nat} (h : ∀ r, m.offset r ≠ addr) : m.regAt addr = none :=
  List.find?_eq_none.mpr fun r _ => by simpa using h r

/-- A size other than 2, an odd offset, or an offset with no register (R55). -/
theorem decodeAccess_bad {m : RegMap} {addr size : Nat}
    (h : size ≠ 2 ∨ addr % 2 = 1 ∨ ∀ r, m.offset r ≠ addr) : decodeAccess m addr size = .error .badAccess := by
  unfold decodeAccess
  split
  · rfl
  · next regular =>
    obtain hs | ho | hn := h
    · exact absurd (.inl hs) regular
    · exact absurd (.inr ho) regular
    · rw [regAt_eq_none hn]

/-- An access the decoding refuses is refused, write or read. -/
theorem access_refused {addr size : Nat} {e : Refusal} (h : decodeAccess s.par.regmap addr size = .error e) :
    memWrite addr size v s = .error e ∧ memRead addr size s = .error e := by
  simp only [memWrite, memRead, h, and_self]

/-- Only CNT_LO, CNT_HI, PEND0 and PEND1 are readable (R56). -/
theorem readReg_unreadable {r : Reg} (hc : ∀ c, r ≠ .cntLo c ∧ r ≠ .cntHi c) (h0 : r ≠ .pend0) (h1 : r ≠ .pend1) :
    readReg r s = .error .unreadable := by
  cases r with
  | cntLo c => exact absurd rfl (hc c).1
  | cntHi c => exact absurd rfl (hc c).2
  | pend0 => exact absurd rfl h0
  | pend1 => exact absurd rfl h1
  | _ => rfl

/-- Settles O42: the decoding refuses the access, or the register it reaches does. -/
theorem meaninglessAccessesRefused : Obligations.MeaninglessAccessesRefused := by
  unfold Obligations.MeaninglessAccessesRefused
  intro s v
  exact ⟨fun addr size bad => access_refused (decodeAccess_bad bad),
    fun r h hc h0 h1 => (memRead_offset h r).trans (readReg_unreadable hc h0 h1),
    fun c h => ⟨memWrite_offset h (.cntLo c) v, memWrite_offset h (.cntHi c) v⟩⟩

end Sys2Proof.Machine

/-!
PROOFS. The decoder: it reads back every encoding (O1) and no other word (O2), accepts the words of the opcode table
(O3), and decodes the words of the vectors (O4). An opcode has one row (`opcodeRow`), and a row says which CH and KIND
fields it takes and which command it makes of them: `decode_ok_iff` says so once, and the rest is about rows.
-/

namespace Sys2Proof

/-! ## The fields of a command word (R81) -/

section
variable (op : BitVec 8) (ch : BitVec 2) (kind : BitVec 3)

@[simp] theorem commandWord_zero : (commandWord op ch kind).extractLsb' 0 3 = 0#3 :=
  BitVec.extractLsb'_append_eq_right

@[simp] theorem commandWord_kind : (commandWord op ch kind).extractLsb' 3 3 = kind :=
  calc (commandWord op ch kind).extractLsb' 3 3
    _ = (op ++ ch ++ kind).extractLsb' 0 3 := BitVec.extractLsb'_append_eq_of_le (by decide)
    _ = kind := BitVec.extractLsb'_append_eq_right

@[simp] theorem commandWord_ch : (commandWord op ch kind).extractLsb' 6 2 = ch :=
  calc (commandWord op ch kind).extractLsb' 6 2
    _ = (op ++ ch ++ kind).extractLsb' 3 2 := BitVec.extractLsb'_append_eq_of_le (by decide)
    _ = (op ++ ch).extractLsb' 0 2 := BitVec.extractLsb'_append_eq_of_le (by decide)
    _ = ch := BitVec.extractLsb'_append_eq_right

@[simp] theorem commandWord_opcode : (commandWord op ch kind).extractLsb' 8 8 = op :=
  calc (commandWord op ch kind).extractLsb' 8 8
    _ = (op ++ ch ++ kind).extractLsb' 5 8 := BitVec.extractLsb'_append_eq_of_le (by decide)
    _ = (op ++ ch).extractLsb' 2 8 := BitVec.extractLsb'_append_eq_of_le (by decide)
    _ = op := BitVec.extractLsb'_append_eq_left

end

/-- A word whose ZERO field is 0 is made of its other fields. -/
theorem commandWord_fields {cw : BitVec 16} (h : cw.extractLsb' 0 3 = 0#3) :
    commandWord (cw.extractLsb' 8 8) (cw.extractLsb' 6 2) (cw.extractLsb' 3 3) = cw := by
  rw [commandWord, ← h, BitVec.extractLsb'_append_extractLsb'_eq_extractLsb' (by rfl),
    BitVec.extractLsb'_append_extractLsb'_eq_extractLsb' (by rfl),
    BitVec.extractLsb'_append_extractLsb'_eq_extractLsb' (by rfl)]
  exact BitVec.extractLsb'_eq_self

@[simp] theorem chanOfField_chanField (c : Chan) : chanOfField (chanField c) = c := by
  cases c <;> rfl

@[simp] theorem chanField_chanOfField (ch : BitVec 2) : chanField (chanOfField ch) = ch := by
  revert ch; decide

/-! ## The rows of the opcode map (R82, R84) -/

/-- The CH and KIND fields that the format of the row wants to be 0 are 0 (R82). -/
def Row.accepts (row : Row) (ch : BitVec 2) (kind : BitVec 3) : Bool :=
  match row with
  | .global _ => ch == 0#2 && kind == 0#3
  | .channel _ => kind == 0#3
  | .slot _ => true

/-- The command a row makes of CH, KIND and DATA. -/
def Row.instr (row : Row) (ch : BitVec 2) (kind : BitVec 3) (data : Word) : Instr :=
  match row with
  | .global build => build data
  | .channel build => build (chanOfField ch) data
  | .slot build => build (chanOfField ch) kind data

/-- What the decoder reads: ZERO is 0, the opcode has a row, and the row takes the fields (R85 step 1, R86). -/
theorem decode_ok_iff {cw : BitVec 16} {data : Word} {i : Instr} :
    decode cw data = .ok i ↔ cw.extractLsb' 0 3 = 0#3 ∧ ∃ row, opcodeRow (cw.extractLsb' 8 8).toNat = some row ∧
      row.accepts (cw.extractLsb' 6 2) (cw.extractLsb' 3 3) = true ∧
      row.instr (cw.extractLsb' 6 2) (cw.extractLsb' 3 3) data = i := by
  unfold decode
  by_cases hz : cw.extractLsb' 0 3 = 0#3
  · cases hr : opcodeRow (cw.extractLsb' 8 8).toNat with
    | none => simp [hz]
    | some row => cases row <;> simp [hz, Row.accepts, Row.instr, ite_eq_iff]
  · simp [hz]

/-- The word of an opcode with a row decodes as the row says. -/
theorem decode_commandWord {op : BitVec 8} {row : Row} {ch : BitVec 2} {kind : BitVec 3}
    (h : opcodeRow op.toNat = some row) (ha : row.accepts ch kind = true) (data : Word) :
    decode (commandWord op ch kind) data = .ok (row.instr ch kind data) := by
  rw [decode_ok_iff]
  simp only [commandWord_zero, commandWord_opcode, commandWord_ch, commandWord_kind, true_and]
  exact ⟨row, h, ha, rfl⟩

theorem decode_wordG {op : BitVec 8} {build : Word → Instr} {data : Word} {i : Instr}
    (h : opcodeRow op.toNat = some (.global build)) (hi : build data = i) : decode (wordG op) data = .ok i :=
  hi ▸ decode_commandWord h rfl data

theorem decode_wordC {op : BitVec 8} {build : Chan → Word → Instr} {c : Chan} {data : Word} {i : Instr}
    (h : opcodeRow op.toNat = some (.channel build)) (hi : build c data = i) : decode (wordC op c) data = .ok i := by
  rw [wordC, decode_commandWord h rfl, Row.instr, chanOfField_chanField, hi]

theorem decode_wordS {op : BitVec 8} {build : Chan → BitVec 3 → Word → Instr} {c : Chan} {kind : BitVec 3}
    {data : Word} {i : Instr} (h : opcodeRow op.toNat = some (.slot build)) (hi : build c kind data = i) :
    decode (wordS op c kind) data = .ok i := by
  rw [wordS, decode_commandWord h rfl, Row.instr, chanOfField_chanField, hi]

/-- Settles O1: the row of each command's opcode makes the command again of the fields it was encoded with. -/
theorem decodeReadsBackEncoding : Obligations.DecodeReadsBackEncoding := by
  unfold Obligations.DecodeReadsBackEncoding
  intro i
  cases i with
  | siginst | sigrem => exact decode_wordS rfl rfl
  | setPtofs | getPtofs | setPten | getPten | setOutmode | getOutmode | setOutset | getOutset | setSelftest
  | getSelftest | getIrqcnt | init | exit => exact decode_wordG rfl rfl
  | _ => exact decode_wordC rfl rfl

/-! ## A row encodes what it decodes -/

/-- The commands `f` makes of DATA all have the command word `w`, with DATA for operand, or 0 if `f` ignores DATA
(R84, R90). -/
def Encodes (f : Word → Instr) (w : BitVec 16) : Prop :=
  ∀ d, (encode (f d)).1 = w ∧ ((encode (f d)).2 = d ∨ ((encode (f d)).2 = 0 ∧ ∀ other, f other = f d))

/-- The commands of the row are encoded with the opcode `op`, in the row's format. -/
def Row.EncodedBy (op : BitVec 8) : Row → Prop
  | .global build => Encodes build (wordG op)
  | .channel build => ∀ c, Encodes (build c) (wordC op c)
  | .slot build => ∀ c kind, Encodes (build c kind) (wordS op c kind)

/-- Row by row of R84: the decoder and the encoder use the same opcode and format. -/
theorem opcodeRow_encodedBy {n : Nat} {row : Row} (h : opcodeRow n = some row) : row.EncodedBy (BitVec.ofNat 8 n) := by
  unfold opcodeRow at h
  split at h
  case h_53 => cases h
  all_goals
    cases h
    simp [Row.EncodedBy, Encodes, encode]

theorem Row.EncodedBy.instr {op : BitVec 8} {row : Row} {ch : BitVec 2} {kind : BitVec 3} (h : row.EncodedBy op)
    (ha : row.accepts ch kind = true) : Encodes (row.instr ch kind) (commandWord op ch kind) := by
  cases row with
  | global build =>
    obtain ⟨rfl, rfl⟩ : ch = 0#2 ∧ kind = 0#3 := by simpa [Row.accepts] using ha
    exact h
  | channel build =>
    obtain rfl : kind = 0#3 := by simpa [Row.accepts] using ha
    have encoded : Encodes (build (chanOfField ch)) (wordC op (chanOfField ch)) := h (chanOfField ch)
    rwa [wordC, chanField_chanOfField] at encoded
  | slot build =>
    have encoded : Encodes (build (chanOfField ch) kind) (wordS op (chanOfField ch) kind) := h (chanOfField ch) kind
    rwa [wordS, chanField_chanOfField] at encoded

/-- Settles O2: the row that read the word encodes its command with the word's own fields. -/
theorem decodedWordIsEncoding : Obligations.DecodedWordIsEncoding := by
  unfold Obligations.DecodedWordIsEncoding
  intro cw data i h
  obtain ⟨hz, row, hr, ha, rfl⟩ := decode_ok_iff.mp h
  have encoded := opcodeRow_encodedBy hr
  rw [BitVec.ofNat_toNat, BitVec.setWidth_eq] at encoded
  obtain ⟨hw, hd⟩ := encoded.instr ha data
  refine ⟨hw.trans (commandWord_fields hz), hd.imp_right fun ⟨h0, ignored⟩ => ⟨h0, fun other => ?_⟩⟩
  exact decode_ok_iff.mpr ⟨hz, row, hr, ha, ignored other⟩

/-! ## The opcode table (R84, spec/opcode_table.json) -/

/-- The bits of the low byte that the row's format fixes (R82). -/
def Row.lowMask : Row → BitVec 8
  | .global _ => 0xFF
  | .channel _ => 0x3F
  | .slot _ => 0x07

/-- The opcode map has the rows of the table, each with the mask of its format and the word of its opcode. -/
theorem mem_opcodeRows_iff {p : BitVec 16 × BitVec 16} :
    p ∈ Machine.opcodeRows ↔
      ∃ op : BitVec 8, ∃ row, opcodeRow op.toNat = some row ∧ p = (0xFF#8 ++ row.lowMask, op ++ 0#8) := by
  have listed : ∀ op : BitVec 8,
      ((opcodeRow op.toNat).all fun row => (0xFF#8 ++ row.lowMask, op ++ 0#8) ∈ Machine.opcodeRows) = true := by
    decide
  have mapped : (Machine.opcodeRows.all fun p => p.2 == p.2.extractLsb' 8 8 ++ 0#8 &&
      (opcodeRow (p.2.extractLsb' 8 8).toNat).map (fun row => 0xFF#8 ++ row.lowMask) == some p.1) = true := by
    decide
  constructor
  · intro hp
    have hp := List.all_eq_true.mp mapped p hp
    simp only [Bool.and_eq_true, beq_iff_eq, Option.map_eq_some_iff] at hp
    obtain ⟨hw, row, hr, hm⟩ := hp
    exact ⟨_, row, hr, Prod.ext hm.symm hw⟩
  · rintro ⟨op, row, hr, rfl⟩
    simpa [hr] using listed op

/-- Under a mask that fixes its opcode, a word matches if its opcode and the fixed bits of its low byte do. -/
theorem and_mask_eq_iff (cw : BitVec 16) (low op : BitVec 8) :
    cw &&& (0xFF#8 ++ low) = op ++ 0#8 ↔ cw.extractLsb' 8 8 = op ∧ cw.extractLsb' 0 8 &&& low = 0#8 := by
  have halves : cw = cw.extractLsb' 8 8 ++ cw.extractLsb' 0 8 := by
    rw [BitVec.extractLsb'_append_extractLsb'_eq_extractLsb' (by rfl)]
    exact BitVec.extractLsb'_eq_self.symm
  generalize cw.extractLsb' 8 8 = h, cw.extractLsb' 0 8 = l at halves ⊢
  have all : h &&& 0xFF#8 = h := BitVec.and_allOnes
  rw [halves, BitVec.and_append, all]
  constructor
  · intro e
    have high := congrArg (BitVec.extractLsb' 8 8) e
    have rest := congrArg (BitVec.extractLsb' 0 8) e
    exact ⟨BitVec.extractLsb'_append_eq_left.symm.trans (high.trans BitVec.extractLsb'_append_eq_left),
      BitVec.extractLsb'_append_eq_right.symm.trans (rest.trans BitVec.extractLsb'_append_eq_right)⟩
  · rintro ⟨rfl, e⟩
    rw [e]

/-- A row takes the fields of a word if and only if the bits its format fixes are 0 (R82). -/
theorem Row.accepts_iff (row : Row) (cw : BitVec 16) :
    (cw.extractLsb' 0 3 = 0#3 ∧ row.accepts (cw.extractLsb' 6 2) (cw.extractLsb' 3 3) = true) ↔
      cw.extractLsb' 0 8 &&& row.lowMask = 0#8 := by
  have field (start len : Nat) (h : start + len ≤ 8) :
      cw.extractLsb' start len = (cw.extractLsb' 0 8).extractLsb' start len := by
    rw [BitVec.extractLsb'_extractLsb'_of_le h]
  rw [field 0 3 (by decide), field 6 2 (by decide), field 3 3 (by decide)]
  generalize cw.extractLsb' 0 8 = low
  cases row with
  | global | channel | slot =>
    revert low
    simp only [accepts, lowMask]
    decide

/-- Settles O3: a word decodes if its opcode has a row that takes its fields, that is, if it matches that row. -/
theorem acceptedWordsAreTheTable : Obligations.AcceptedWordsAreTheTable := by
  unfold Obligations.AcceptedWordsAreTheTable
  intro cw data
  constructor
  · rintro ⟨i, h⟩
    obtain ⟨hz, row, hr, ha, -⟩ := decode_ok_iff.mp h
    have low := (row.accepts_iff cw).mp ⟨hz, ha⟩
    exact ⟨_, mem_opcodeRows_iff.mpr ⟨_, row, hr, rfl⟩, (and_mask_eq_iff ..).mpr ⟨rfl, low⟩⟩
  · rintro ⟨p, hp, hm⟩
    obtain ⟨op, row, hr, rfl⟩ := mem_opcodeRows_iff.mp hp
    obtain ⟨rfl, hlow⟩ := (and_mask_eq_iff ..).mp hm
    obtain ⟨hz, ha⟩ := (row.accepts_iff cw).mpr hlow
    exact ⟨_, decode_ok_iff.mpr ⟨hz, row, hr, ha, rfl⟩⟩

/-- Settles O4: the opcodes are counted, and each word is read field by field. -/
theorem tableWordsDecode : Obligations.TableWordsDecode := by
  unfold Obligations.TableWordsDecode
  have opcodes : ((List.range 256).filter fun n => (opcodeRow n).isSome).length = 52 := by rfl
  have others : ((List.range 256).filter fun n => (opcodeRow n).isNone).length = 204 := by rfl
  exact ⟨opcodes, others, rfl, rfl, rfl, rfl, rfl, rfl, rfl, rfl, rfl, rfl, rfl, rfl, rfl, rfl⟩

end Sys2Proof
/-!
PROOFS. What HOST's turn does with a command word (O5, O6) and what a command answers before its first micro-step: the
refusals (O8) and the answer to an operand out of range (O7).
-/

namespace Sys2Proof.Machine

/-! ## HOST's turn (R63, R65, R85 step 1) -/

/-- A quiet idle block gives HOST the turn. -/
theorem step_quiet {s : State} (hi : s.idle = true) (hs : s.script = []) : step s = hostTurn s := by
  simp only [step, hi, hs, if_true]

/-- So does a schedule that begins with HOST's turn. -/
theorem step_go {s : State} {es : List Event} (hi : s.idle = true) (hs : s.script = .go :: es) :
    step s = hostTurn { s with script := es } := by
  simp only [step, hi, hs, if_true]

/-- A command word that decodes is executed, taken from the queue. -/
theorem hostTurn_ok {s : State} {q : Command} {rest : List Command} {i : Instr} (hq : s.inbox = q :: rest)
    (hd : decode q.cw q.data = .ok i) : hostTurn s = exec i { s with inbox := rest } := by
  simp only [hostTurn, hq, hd]

/-- A command word that does not decode is answered UnsupportedOperation (R86, R205). -/
theorem hostTurn_error {s : State} {q : Command} {rest : List Command} {e : DecodeError} (hq : s.inbox = q :: rest)
    (hd : decode q.cw q.data = .error e) :
    hostTurn s = .next ({ s with inbox := rest }.raise unsupportedOperation) := by
  simp only [hostTurn, hq, hd]

/-- Settles O5: either way the step is HOST's turn. -/
theorem stepRunsDecodedCommand : Obligations.StepRunsDecodedCommand := by
  unfold Obligations.StepRunsDecodedCommand
  intro s q rest i es hi hq hd
  exact ⟨fun hs => (step_quiet hi hs).trans (hostTurn_ok hq hd),
    fun hs => (step_go hi hs).trans (hostTurn_ok (s := { s with script := es }) hq hd)⟩

/-- Settles O6: a word that no row of the table matches does not decode (`acceptedWordsAreTheTable`). -/
theorem unknownWordIsUnsupported : Obligations.UnknownWordIsUnsupported := by
  unfold Obligations.UnknownWordIsUnsupported
  intro s q rest hi hs hq unknown
  cases hd : decode q.cw q.data with
  | ok i => exact absurd ((acceptedWordsAreTheTable q.cw q.data).mp ⟨i, hd⟩) unknown
  | error e => exact (step_quiet hi hs).trans (hostTurn_error hq hd)

/-! ## The command behind an instruction (R84, R85) -/

/-- Every instruction but INIT is a `command` with the micro-steps `microSteps` gives it, and with a check that fails
if the operand is out of range; a nonzero SET.SELFTEST only where no command is accepted (R85, R182). -/
theorem exec_eq_command {i : Instr} {s : State} (hi : i ≠ .init)
    (hself : s.Accepts → ∀ d, i = .setSelftest d → d = 0) :
    ∃ check, (check = none → i.wellFormed = true) ∧ exec i s = command check (microSteps s.cfg i) s := by
  cases i with
  | init => exact absurd rfl hi
  | setMode | setLoad | setClear | setStore | setTstart | setReadmode | setWritemode | setIrqen | setCompirq
  | setCbirq | setLbirq | setXirq | clrIrqstat | setPten | setOutset => exact ⟨_, require_eq_none, rfl⟩
  | siginst c k d | sigrem c k =>
    cases hk : kindOfField k with
    | none =>
      simp only [exec, execSiginst, execSigrem, microSteps, hk]
      exact ⟨some invalidParameter, nofun, rfl⟩
    | some j =>
      simp only [exec, execSiginst, execSigrem, microSteps, hk]
      exact ⟨_, fun _ => decide_eq_true (kindOfField_le hk), rfl⟩
  | setSelftest d =>
    have runs : ¬ (s.prog = [] ∧ s.live = true ∧ upTo 0xFFFF d = true ∧ d ≠ 0) :=
      fun ⟨hp, hl, _, hd⟩ => hd (hself ⟨hl, hp⟩ d rfl)
    exact ⟨_, require_eq_none, if_neg runs⟩
  | _ => exact ⟨_, fun _ => rfl, rfl⟩

/-- A command while another is in progress is refused (R64). -/
theorem command_overlap {check : Option (BitVec 4)} {steps : List Micro} {s : State} (hp : s.prog ≠ []) :
    command check steps s = .refused .overlap := if_pos hp

/-- A command while the block is not live is refused (R92). -/
theorem command_notLive {check : Option (BitVec 4)} {steps : List Micro} {s : State} (hp : s.prog = [])
    (hl : s.live = false) : command check steps s = .refused .notLive := by
  simp only [command, hp, hl, ne_eq, not_true_eq_false, if_true, if_false]

/-- Settles O8: where the block accepts no command, every instruction but INIT is a `command`. -/
theorem commandsWithoutMeaningRefused : Obligations.CommandsWithoutMeaningRefused := by
  unfold Obligations.CommandsWithoutMeaningRefused
  refine ⟨fun i s hp => ?_, fun i s hp hl hi => ?_, fun s hp hl => ?_⟩
  · by_cases hi : i = .init
    · subst hi
      exact if_pos hp
    · obtain ⟨check, -, e⟩ := exec_eq_command (s := s) hi fun ⟨_, h⟩ => absurd h hp
      exact e.trans (command_overlap hp)
  · obtain ⟨check, -, e⟩ := exec_eq_command (s := s) hi fun ⟨h, _⟩ => by simp [hl] at h
    exact e.trans (command_notLive hp hl)
  · simp only [exec, execInit, hp, hl, ne_eq, not_true_eq_false, if_true, if_false]

/-! ## Operands out of range (R87, R221) -/

/-- A check that fails answers InvalidParameter and changes nothing else. -/
theorem setter_invalid {ok : Bool} {s : State} (h : s.Accepts) (hok : ok = false) (steps : List Micro) :
    setter (require ok) steps s = .next (s.raise invalidParameter) := by
  subst hok
  exact command_rejected h _ _

/-- A KIND field above 4 names no event kind (R23). -/
theorem kindOfField_none {k : BitVec 3} (h : decide (k.toNat ≤ 4) = false) : kindOfField k = none := by
  revert k; decide

/-- An operand out of its range (R221). -/
theorem exec_invalid {i : Instr} {s : State} (h : s.Accepts) (hw : i.wellFormed = false) :
    exec i s = .next (s.raise invalidParameter) := by
  cases i with
  | setMode | setLoad | setClear | setStore | setTstart | setReadmode | setWritemode | setIrqen | setCompirq
  | setCbirq | setLbirq | setXirq | clrIrqstat | setPten | setOutset => exact setter_invalid h hw _
  | siginst c k d | sigrem c k =>
    simp only [exec, execSiginst, execSigrem, kindOfField_none hw]
    exact command_rejected h _ _
  | setSelftest d =>
    have out : upTo 0xFFFF d = false := hw
    simp only [exec, execSetSelftest, out, Bool.false_eq_true, false_and, and_false, if_false]
    exact setter_invalid h rfl _
  | _ => cases hw

/-- Settles O7: the range check, and the mode check of FREQSTART, come before the first micro-step. -/
theorem outOfRangeIsInvalidParameter : Obligations.OutOfRangeIsInvalidParameter := by
  unfold Obligations.OutOfRangeIsInvalidParameter
  exact ⟨fun i s h hw => exec_invalid h hw, fun c s h hm => setter_invalid h (by simpa using hm) _⟩

end Sys2Proof.Machine
/-!
PROOFS. In the live window only a nonzero SET.SELFTEST is refused (O58). A run is refused only by one of its
micro-steps, so it is enough that what `Kept` carries along the schedule gives every micro-step a meaning
(`Meaningful`): well-formed parameters, records in their domains, and micro-steps that write no CNT_LO and no CNT_HI,
and to CNTCTL only words with one immediate code at most.
-/

namespace Sys2Proof.Machine

/-! ## Runs that are never refused -/

/-- The micro-step has a meaning: it goes on, ends its list or waits. -/
def Flow.Proceeds : Flow → Prop
  | .refused _ => False
  | _ => True

/-- The run answers a next state. -/
def Answers (x : Out) : Prop := ∃ t, x = .next t

/-- `J` is kept along the schedule and gives every micro-step at its place a meaning. -/
structure Meaningful (J : State → Prop) : Prop extends Kept J where
  proceeds : ∀ {a : Agent} {m : Micro} {rest : List Micro} {s : State},
    J (s.setPosition a (m :: rest)) → (m.run s).Proceeds

section
variable {J : State → Prop} {s : State}

/-- The agent may take the next micro-step: the handler always, the command while the handler rests (R65). -/
def State.MayAct (s : State) (a : Agent) : Prop := a = .irq ∨ s.HandlerRests

theorem Kept.takeMicro (k : Kept J) {a : Agent} {m : Micro} {rest : List Micro} {t : State} (ha : s.MayAct a)
    (hj : J (s.setPosition a (m :: rest))) (h : takeMicro a m rest s = .next t) : J t := by
  cases a with
  | irq => exact k.handler hj h
  | host => exact k.command (ha.resolve_left nofun) hj h

theorem Meaningful.takeMicro (k : Meaningful J) {a : Agent} {m : Micro} {rest : List Micro}
    (hj : J (s.setPosition a (m :: rest))) : Answers (takeMicro a m rest s) := by
  have proceeds := k.proceeds hj
  unfold Machine.takeMicro
  cases hm : m.run s with
  | cont t | ended t => exact ⟨_, rfl⟩
  | blocked => exact ⟨_, rfl⟩
  | refused r => rw [hm] at proceeds; exact proceeds.elim

theorem Meaningful.runSteps (k : Meaningful J) {a : Agent} {ms : List Micro} (ha : s.MayAct a)
    (hj : J (s.setPosition a ms)) : Answers (runSteps a ms s) := by
  induction ms generalizing s with
  | nil => exact ⟨_, rfl⟩
  | cons m rest ih =>
    have proceeds := k.proceeds hj
    cases hm : m.run s with
    | cont u =>
      have rests : u.MayAct a := ha.imp_right fun h => by
        rwa [State.HandlerRests, (Micro.run_place hm).2.1]
      rw [runSteps_cont hm]
      exact ih rests (k.toKept.takeMicro ha hj (takeMicro_of_cont hm))
    | ended u => exact ⟨_, runSteps_ended hm⟩
    | blocked => exact ⟨s.setPosition a (m :: rest), by simp only [Machine.runSteps, hm]⟩
    | refused r => rw [hm] at proceeds; exact proceeds.elim

theorem Meaningful.runQuiet (k : Meaningful J) (hj : J s) : Answers (runQuiet s) := by
  have hirq : J (s.setPosition .irq s.hprog) := by rwa [setPosition_irq_self rfl]
  obtain ⟨t, ht⟩ := k.runSteps (.inl rfl) hirq
  obtain ⟨jt, rests⟩ := k.runSteps_irq hirq ht
  simp only [Machine.runQuiet, ht]
  exact k.runSteps (.inr rests) (by rwa [setPosition_host_self rfl])

theorem Meaningful.goStep (k : Meaningful J) (hj : J s) : Answers (goStep s) := by
  unfold Machine.goStep
  split
  · next m rest hq => exact k.takeMicro (by rwa [setPosition_irq_self hq])
  · split
    · next m rest hp => exact k.takeMicro (by rwa [setPosition_host_self hp])
    · exact ⟨s, rfl⟩

theorem Meaningful.eventStep (k : Meaningful J) (e : Event) (hj : J s) : Answers (eventStep e s) := by
  cases e with
  | go => exact k.goStep hj
  | _ => exact ⟨_, rfl⟩

/-- Under every schedule the run answers a next state. -/
theorem Meaningful.drive (k : Meaningful J) {es : List Event} (hj : J s) : Answers (drive es s) := by
  induction es generalizing s with
  | nil => exact k.runQuiet (k.script [] hj)
  | cons e es ih =>
    unfold Machine.drive
    split
    · exact ⟨_, rfl⟩
    · split
      · exact ⟨_, rfl⟩
      · obtain ⟨t, ht⟩ := k.eventStep e hj
        simp only [ht]
        exact ih (k.toKept.eventStep hj ht)

end

/-! ## Micro-steps that have a meaning -/

/-- A word written to CNTCTL[c] that has one immediate code at most if the record of `c` has none: `CCTL(c)`, with one
field forced or with TB = 1, or 0 (R58, R105, R109, R207). -/
def Src.oneAction (c : Chan) : Src → Bool
  | .cctl d | .cctlForce d _ | .cctlTb d => d == c
  | .const v => v == 0
  | _ => false

/-- The action has a meaning in every state whose records are in their domains: no write of a read-only register, and
no word with two immediate codes (R58, R61). -/
def Act.regular : Act → Bool
  | .write (.cntctl c) src => src.oneAction c
  | .write (.cntLo _) _ | .write (.cntHi _) _ => false
  | _ => true

/-- Every action of the list is regular. -/
def Regular (ms : List Micro) : Prop := ∀ m ∈ ms, m.act.regular = true

theorem writeCntctl_oneAction {c : Chan} {src : Src} {s : State} (hwf : s.par.Wf) (hr : noImmediate (s.ch.get c))
    (h : src.oneAction c = true) : ∃ t, writeCntctl c (src.eval s) s = .ok t := by
  cases src with
  | cctl d =>
    obtain rfl : d = c := by simpa [Src.oneAction] using h
    exact ⟨_, writeCntctl_cctl hwf d hr⟩
  | cctlForce d f =>
    obtain rfl : d = c := by simpa [Src.oneAction] using h
    exact ⟨_, writeCntctl_forced hwf d f hr⟩
  | cctlTb d =>
    obtain rfl : d = c := by simpa [Src.oneAction] using h
    exact ⟨_, writeCntctl_tb hwf d hr⟩
  | const v =>
    obtain rfl : v = 0 := by simpa [Src.oneAction] using h
    exact ⟨_, writeCntctl_accepted (by simp [TwoImmediate, Src.eval])⟩
  | _ => cases h

/-- A register write at the offset of a register has a meaning if the write of that register has. -/
theorem proceeds_write {r : Reg} {v : Reg16} {s : State} (hwf : s.par.Wf) (h : ∃ t, writeReg r v s = .ok t) :
    (Flow.ofWrite (memWrite (s.par.regmap.offset r) 2 v s)).Proceeds := by
  obtain ⟨t, ht⟩ := h
  rw [memWrite_offset hwf, ht]
  trivial

/-- A register read at the offset of a readable register has a meaning. -/
theorem proceeds_read {r : Reg} {s : State} {store : Reg16 → State → State} (hwf : s.par.Wf)
    (h : ∃ p, readReg r s = .ok p) :
    (Flow.ofRead store (memRead (s.par.regmap.offset r) 2 s)).Proceeds := by
  obtain ⟨p, hp⟩ := h
  rw [memRead_offset hwf, hp]
  trivial

/-- A regular action has a meaning while the records are in their domains (R44, R58). -/
theorem Act.regular_proceeds {a : Act} {s : State} (hwf : s.par.Wf) (hd : DomainsHold s) (ha : a.regular = true) :
    (a.run s).Proceeds := by
  cases a with
  | write r src =>
    refine proceeds_write hwf ?_
    cases r with
    | cntctl c => exact writeCntctl_oneAction hwf (noImmediate_of_recOk (hd.records c)) ha
    | cntLo c | cntHi c => cases ha
    | _ => exact ⟨_, rfl⟩
  | readLo | readHi | hPend0 | hPend1 | hCntLo | hCntHi => exact proceeds_read hwf ⟨_, rfl⟩
  | await c =>
    simp only [Act.run]
    split
    · trivial
    · split <;> trivial
  | statQuery c =>
    simp only [Act.run]
    split
    · trivial
    · exact proceeds_read hwf (by cases c <;> exact ⟨_, rfl⟩)
  | statClear c mask =>
    simp only [Act.run]
    split
    · trivial
    · exact proceeds_write hwf (by cases c <;> exact ⟨_, rfl⟩)
  | hOwn =>
    simp only [Act.run]
    split <;> trivial
  | _ => trivial

/-! ## The lists of the commands -/

@[simp] theorem regular_nil : Regular [] := by simp [Regular]

@[simp] theorem regular_cons (m : Micro) (ms : List Micro) :
    Regular (m :: ms) ↔ m.act.regular = true ∧ Regular ms := List.forall_mem_cons

@[simp] theorem regular_append (ms ns : List Micro) : Regular (ms ++ ns) ↔ Regular ms ∧ Regular ns :=
  List.forall_mem_append

@[simp] theorem forceSteps_regular (c : Chan) (f : ForceField) (g : Guard) : Regular (forceSteps c f g) := by
  simp [forceSteps, Act.regular, Src.oneAction]

theorem setLoadSteps_regular (c : Chan) (d : Word) : Regular (setLoadSteps c d) := by
  unfold setLoadSteps
  split <;> simp [rewriteCctl, Act.regular, Src.oneAction]

theorem setClearSteps_regular (c : Chan) (d : Word) : Regular (setClearSteps c d) := by
  unfold setClearSteps
  split <;> simp [rewriteCctl, Act.regular, Src.oneAction]

theorem setStoreSteps_regular (c : Chan) (d : Word) : Regular (setStoreSteps c d) := by
  unfold setStoreSteps
  split <;> simp [rewriteCctl, Act.regular, Src.oneAction]

theorem setIrqenSteps_regular (c : Chan) (d : Word) : Regular (setIrqenSteps c d) := by
  unfold setIrqenSteps setIenSteps
  split <;> simp [ienOnSteps, ienOffSteps, Act.regular]

theorem armSteps_regular : Regular armSteps := by unfold Regular; decide

theorem handlerSteps_regular : Regular handlerSteps := by unfold Regular; decide

theorem exitSteps_regular : Regular exitSteps := by unfold Regular; decide

/-- Every command of the live window is made of regular micro-steps (R58: "no rule of this spec writes a word with
more than one" immediate code). -/
theorem microSteps_regular {i : Instr} (p : CfgPort) (hi : i ≠ .init) : Regular (microSteps p i) := by
  cases i with
  | init => exact absurd rfl hi
  | setLoad c d => simp [microSteps, setLoadSteps_regular, Act.regular]
  | setClear c d => simp [microSteps, setClearSteps_regular, Act.regular]
  | setStore c d => simp [microSteps, setStoreSteps_regular, Act.regular]
  | setIrqen c d => simp [microSteps, setIrqenSteps_regular, Act.regular]
  | setPten d => simp [microSteps, armSteps_regular, Act.regular]
  | exit => simp [microSteps, exitSteps_regular, Act.regular]
  | siginst c k d | sigrem c k =>
    simp only [microSteps]
    cases kindOfField k <;> simp [Act.regular]
  | _ =>
    simp [microSteps, setModeSteps, setTstartSteps, setCompaSteps, setCompbSteps, setReadmodeSteps, setReadtoutSteps,
      setWritemodeSteps, setCompirqSteps, setCbirqSteps, setLbirqSteps, setXirqSteps, setOutmodeSteps, setOutsetSteps,
      setSelftestSteps, writeSteps, readSteps, writePair, rewriteCctl, rewriteIctl, Act.regular, Src.oneAction]

/-! ## What the schedule carries along -/

/-- The micro-step stores a value of its field's domain, and is regular. -/
def Act.sound (a : Act) : Bool := a.inDomain && a.regular

theorem Act.sound_iff {a : Act} : a.sound = true ↔ a.inDomain = true ∧ a.regular = true := by
  rw [Act.sound, Bool.and_eq_true]

/-- The parameters are well-formed, the records in their domains, and all micro-steps to come sound. -/
structure SoundInv (s : State) : Prop where
  wf : s.par.Wf
  carries : Carries DomainsHold Act.sound s

theorem sound_keptByActs : KeptByActs DomainsHold Act.sound where
  run ha := DomainsHold.run (Act.sound_iff.mp ha).1
  same := domains_keptByActs.same
  handler m hm := Act.sound_iff.mpr ⟨domains_keptByActs.handler m hm, handlerSteps_regular m hm⟩

theorem Extends.wf {s t : State} (h : Extends s t) (hwf : s.par.Wf) : t.par.Wf := by rwa [h.par]

theorem soundInv_kept : Kept SoundInv where
  handler h hm := ⟨(takeMicro_extends hm).wf h.wf, sound_keptByActs.kept.handler h.carries hm⟩
  command hr h hm := ⟨(takeMicro_extends hm).wf h.wf, sound_keptByActs.kept.command hr h.carries hm⟩
  core e h := ⟨(coreStep_extends e _).wf h.wf, sound_keptByActs.kept.core e h.carries⟩
  irq h := ⟨(irqStep_extends _).wf h.wf, sound_keptByActs.kept.irq h.carries⟩
  timeout h := ⟨(timeoutStep_extends _).wf h.wf, sound_keptByActs.kept.timeout h.carries⟩
  present p h := ⟨h.wf, sound_keptByActs.kept.present p h.carries⟩
  script es h := ⟨h.wf, sound_keptByActs.kept.script es h.carries⟩

/-- The micro-step at the place of an agent is of the class. -/
theorem Carries.head {R : State → Prop} {P : Act → Bool} {a : Agent} {m : Micro} {rest : List Micro}
    {s : State} (h : Carries R P (s.setPosition a (m :: rest))) : P m.act = true := by
  cases a with
  | host => exact h.command m (List.mem_cons_self ..)
  | irq => exact h.handler m (List.mem_cons_self ..)

theorem soundInv_meaningful : Meaningful SoundInv where
  toKept := soundInv_kept
  proceeds {a m rest s} h := by
    obtain ⟨hwf, hc⟩ := h
    have same := setPosition_extends a (m :: rest) s
    have wf : s.par.Wf := by rwa [same.par] at hwf
    have domains : DomainsHold s := by
      cases a <;> exact sound_keptByActs.same hc.here rfl rfl rfl
    unfold Micro.run
    split
    · exact Act.regular_proceeds wf domains (Act.sound_iff.mp hc.head).2
    · trivial

/-- A command that begins in the live window leaves only sound micro-steps to come. -/
theorem soundInv_begin {i : Instr} {s : State} (hwf : s.par.Wf) (hd : s.DomainInv) (hc : s.ContextInv)
    (hi : i ≠ .init) (ho : i.wellFormed = true) : SoundInv { s with prog := microSteps s.cfg i } where
  wf := hwf
  carries :=
    { here := ⟨hd.records, hd.offset⟩
      command := fun m hm => Act.sound_iff.mpr
        ⟨microSteps_inDomain ho (fun e => absurd e hi) m hm, microSteps_regular s.cfg hi m hm⟩
      handler := fun m hm => Act.sound_iff.mpr
        ⟨hd.handler m hm, handlerSteps_regular m (hc.place.subset hm)⟩ }

/-- Settles O58: a failing check is an answer, and a command that passes its checks begins in `SoundInv`. -/
theorem liveCommandsNeverRefused : Obligations.LiveCommandsNeverRefused := by
  unfold Obligations.LiveCommandsNeverRefused
  intro i s hwf ha hd hc hi hself
  obtain ⟨check, ho, e⟩ := exec_eq_command (s := s) hi fun _ => hself
  rw [e]
  cases check with
  | some code => exact ⟨_, command_rejected ha code _⟩
  | none =>
    rw [command_accepted ha]
    exact soundInv_meaningful.drive (soundInv_begin hwf hd hc hi (ho rfl))

end Sys2Proof.Machine
/-!
PROOFS. Counter control: the setters of the count-control word (O9 to O13), the comparators (O14), FREQSTART (O15),
WRITE (O16) and the policies of a channel (O19). A setter whose check passes performs its list, under any schedule
(`setter_performs`); in a ready block it answers the state its list leads to (`setter_leads`), and where a list leads
is said by Laws/Commands.lean.
-/

namespace Sys2Proof.Machine

/-! ## Command words (R81, R84) -/

/-- The command word of a format C opcode is the base word of the table with CH at bits 7:6 (R82, R84). -/
theorem wordC_eq_wordFor (op : BitVec 8) (c : Chan) : wordC op c = wordFor (op ++ 0#8) c := by
  cases c <;> revert op <;> decide

/-- A format C command is encoded as its base word with the channel added. -/
theorem encode_channel {i : Instr} {op : BitVec 8} {base : BitVec 16} {c : Chan} {d : Word}
    (h : encode i = (wordC op c, d)) (hb : op ++ 0#8 = base) : encode i = (wordFor base c, d) := by
  rw [h, wordC_eq_wordFor, hb]

/-! ## Operands (R87) -/

theorem upTo_iff {n : Nat} {d : Word} : upTo n d = true ↔ d.toNat ≤ n := decide_eq_true_iff

theorem atMost_eq_false_iff {n : Nat} {d : Word} : atMost n d = false ↔ n < d.toNat := by simp [atMost]

/-- The modes are {0..7, 9, 10} (R87, R101). -/
theorem modeOk_iff {d : Word} : modeOk d = true ↔ d.toNat ≤ 7 ∨ d.toNat = 9 ∨ d.toNat = 10 := by
  simp only [modeOk, Bool.and_eq_true, decide_eq_true_eq, bne_iff_ne]
  omega

/-- The operand checks that the commands make are those of `Instr.wellFormed` (R85 step 5, R221). -/
theorem modeInRange_eq_modeOk (d : Word) : modeInRange d = modeOk d := rfl

/-! ## A command that passes its checks -/

section
variable {s t : State} {c : Chan} {ok : Bool} {steps : List Micro}

/-- A setter whose check passes performs its list and then answers (R85, R80). -/
theorem setter_performs (h : s.Accepts) (hok : ok = true) (steps : List Micro) :
    setter (require ok) steps s = drive s.script { s with prog := steps ++ [(Act.ret .zero).always] } := by
  subst hok
  exact command_accepted h _

/-- A setter answers, in a ready block, the state its list leads to, wherever the list stands. -/
theorem setter_leads (h : s.Ready) (hok : ok = true) (ht : t.prog = [])
    (hl : ∀ p, Leads steps { s with prog := p } { t with prog := p }) :
    setter (require ok) steps s = .next (t.respond 0 0) := by
  subst hok
  have placed : { t with prog := [] } = t := by rw [← ht]
  calc setter (require true) steps s
    _ = .next ({ t with prog := [] }.respond 0 0) := (command_ready h _).trans ((hl _).ret .zero .host)
    _ = .next (t.respond 0 0) := by rw [placed]

/-- A setter of a field of the count-control word (R100). -/
theorem setter_setCctl {a : Act} {f : ChanRec → ChanRec} (h : s.Ready) (hok : ok = true)
    (ha : ∀ u, a.run u = .cont (u.modRec c f)) (hr : noImmediate (f (s.ch.get c))) :
    setter (require ok) [a.always, rewriteCctl c] s = .next ((s.setCctl c f).respond 0 0) :=
  setter_leads h hok h.noCommand fun p =>
    leads_setCctl (s := { s with prog := p }) (g := .always) h.wf (fun _ => rfl) (ha _) hr

/-- A setter whose operand is the immediate code of a field (R105). -/
theorem setter_force (f : ForceField) (h : s.Ready) (hok : ok = true) (hr : noImmediate (s.ch.get c)) :
    setter (require ok) (forceSteps c f .always) s =
      .next ((s.modHw c fun w => { forceHw f w with cntctl := cctlWord s.par.cctl (s.ch.get c) }).respond 0 0) :=
  setter_leads h hok h.noCommand fun p =>
    leads_force (s := { s with prog := p }) h.wf c f .always (fun _ => rfl) hr

/-- A setter of a field that has no register (R112 to R114). -/
theorem setter_modRec {a : Act} {f : ChanRec → ChanRec} (h : s.Ready) (hok : ok = true)
    (ha : ∀ u, a.run u = .cont (u.modRec c f)) :
    setter (require ok) [a.always] s = .next ((s.modRec c f).respond 0 0) :=
  setter_leads h hok h.noCommand fun _ => Leads.single (ha _)

end

/-! ## The setters of the count-control word (R101 to R106) -/

section
variable {c : Chan} {d : Word} {s : State}

theorem exec_setLoad_kept (hd : d ≠ 2) :
    exec (.setLoad c d) s = setter (require (upTo 3 d)) [(Act.setLdc c (d.truncate 2)).always, rewriteCctl c] s :=
  congrArg (setter _ · s) (if_neg hd)

theorem exec_setLoad_now : exec (.setLoad c 2) s = setter (require (upTo 3 2)) (forceSteps c .load .always) s := rfl

theorem exec_setClear_kept (hd : d ≠ 2) :
    exec (.setClear c d) s = setter (require (upTo 3 d)) [(Act.setClc c (d.truncate 2)).always, rewriteCctl c] s :=
  congrArg (setter _ · s) (if_neg hd)

theorem exec_setClear_now : exec (.setClear c 2) s = setter (require (upTo 3 2)) (forceSteps c .clr .always) s := rfl

theorem exec_setStore_kept (hd : d ≠ 1) :
    exec (.setStore c d) s = setter (require (upTo 2 d)) [(Act.setStc c (d.truncate 2)).always, rewriteCctl c] s :=
  congrArg (setter _ · s) (if_neg hd)

theorem exec_setStore_now : exec (.setStore c 1) s = setter (require (upTo 2 1)) (forceSteps c .sto .always) s := rfl

/-- SET.LOAD 2 in a ready block: the counter takes the preload, and no field of the record changes (R102). -/
theorem exec_setLoad_two (h : s.Ready) (hr : recOk (s.ch.get c) = true) :
    exec (.setLoad c 2) s =
      .next ((s.modHw c fun w =>
        { w with cntctl := cctlWord s.par.cctl (s.ch.get c), cnt := compose w.preLo w.preHi }).respond 0 0) :=
  exec_setLoad_now.trans (setter_force .load h rfl (noImmediate_of_recOk hr))

/-- SET.STORE 1 in a ready block: the latch takes the counter, and no field of the record changes (R104). -/
theorem exec_setStore_one (h : s.Ready) (hr : recOk (s.ch.get c) = true) :
    exec (.setStore c 1) s =
      .next ((s.modHw c fun w =>
        { w with cntctl := cctlWord s.par.cctl (s.ch.get c), lat := w.cnt }).respond 0 0) :=
  exec_setStore_now.trans (setter_force .sto h rfl (noImmediate_of_recOk hr))

/-- The operands 0 and 2 of SET.STORE are in range, and neither is the immediate code (R18, R104). -/
theorem store_kept_codes (hd : d = 0 ∨ d = 2) :
    d.toNat ≤ 2 ∧ d ≠ 1 ∧ (d.truncate 2 : BitVec 2) ≠ 1 := by
  obtain rfl | rfl := hd <;> decide

end

/-- Settles O9: the check is the set of modes, and no mode puts an immediate code into the record. -/
theorem setModeMeaning : Obligations.SetModeMeaning := by
  unfold Obligations.SetModeMeaning
  intro c d s
  refine ⟨encode_channel rfl rfl, fun h hd => exec_invalid h ?_, fun h hd => setter_performs h (modeOk_iff.mpr hd) _,
    fun h hr hd => setter_setCctl h (modeOk_iff.mpr hd) (fun _ => rfl)
      (noImmediate_of_recOk (r := s.ch.get c) hr)⟩
  rw [Instr.wellFormed, modeInRange_eq_modeOk, ← Bool.not_eq_true, modeOk_iff]
  exact hd

/-- Settles O10: the code 2 forces; a code in range other than 2 is persisted and is no immediate code. -/
theorem setLoadMeaning : Obligations.SetLoadMeaning := by
  unfold Obligations.SetLoadMeaning
  intro c d s
  refine ⟨encode_channel rfl rfl, fun h hd => exec_invalid h (atMost_eq_false_iff.mpr hd), fun h hd ne => ?_,
    fun h => setter_performs h rfl _, fun h hr hd ne => ?_, exec_setLoad_two⟩
  · exact (exec_setLoad_kept ne).trans (setter_performs h (upTo_iff.mpr hd) _)
  · obtain ⟨-, hclc, hstc⟩ := noImmediate_of_recOk hr
    exact (exec_setLoad_kept ne).trans
      (setter_setCctl h (upTo_iff.mpr hd) (fun _ => rfl) ⟨truncate_two_ne hd ne, hclc, hstc⟩)

/-- Settles O11: as SET.LOAD, with the clear condition. -/
theorem setClearMeaning : Obligations.SetClearMeaning := by
  unfold Obligations.SetClearMeaning
  intro c d s
  refine ⟨encode_channel rfl rfl, fun h hd => exec_invalid h (atMost_eq_false_iff.mpr hd), fun h hd ne => ?_,
    fun h => setter_performs h rfl _, fun h hr hd ne => ?_,
    fun h hr => exec_setClear_now.trans (setter_force .clr h rfl (noImmediate_of_recOk hr))⟩
  · exact (exec_setClear_kept ne).trans (setter_performs h (upTo_iff.mpr hd) _)
  · obtain ⟨hldc, -, hstc⟩ := noImmediate_of_recOk hr
    exact (exec_setClear_kept ne).trans
      (setter_setCctl h (upTo_iff.mpr hd) (fun _ => rfl) ⟨hldc, truncate_two_ne hd ne, hstc⟩)

/-- Settles O12: the code 1 forces; 0 and 2 are persisted and are no immediate code of STO. -/
theorem setStoreMeaning : Obligations.SetStoreMeaning := by
  unfold Obligations.SetStoreMeaning
  intro c d s
  refine ⟨encode_channel rfl rfl, fun h hd => exec_invalid h (atMost_eq_false_iff.mpr hd), fun h hd => ?_,
    fun h => setter_performs h rfl _, fun h hr hd => ?_, exec_setStore_one⟩ <;>
    obtain ⟨hle, ne, hstc⟩ := store_kept_codes hd
  · exact (exec_setStore_kept ne).trans (setter_performs h (upTo_iff.mpr hle) _)
  · obtain ⟨hldc, hclc, -⟩ := noImmediate_of_recOk hr
    exact (exec_setStore_kept ne).trans (setter_setCctl h (upTo_iff.mpr hle) (fun _ => rfl) ⟨hldc, hclc, hstc⟩)

/-- Settles O13: TSTART has no immediate code. -/
theorem setTstartMeaning : Obligations.SetTstartMeaning := by
  unfold Obligations.SetTstartMeaning
  intro c d s
  exact ⟨encode_channel rfl rfl, fun h hd => exec_invalid h (atMost_eq_false_iff.mpr hd),
    fun h hd => setter_performs h (upTo_iff.mpr hd) _,
    fun h hr hd => setter_setCctl h (upTo_iff.mpr hd) (fun _ => rfl)
      (noImmediate_of_recOk (r := s.ch.get c) hr)⟩

/-! ## The comparators (R107, R108) -/

section
variable {c : Chan} {d : Word} {s : State}

theorem leads_setCompa (h : s.par.Wf) :
    Leads (setCompaSteps c d) s
      ((s.modRec c fun r => { r with cmpA := d }).modHw c fun w => { w with cmpaLo := lo16 d, cmpaHi := hi16 d }) :=
  Leads.cons (t := s.modRec c fun r => { r with cmpA := d }) rfl
    (leads_compA (s := s.modRec c _) h c _ _ .always fun _ => rfl)

theorem leads_setCompb (h : s.par.Wf) :
    Leads (setCompbSteps c d) s
      ((s.modRec c fun r => { r with cmpB := d }).modHw c fun w => { w with cmpbLo := lo16 d, cmpbHi := hi16 d }) :=
  Leads.cons (t := s.modRec c fun r => { r with cmpB := d }) rfl
    (leads_compB (s := s.modRec c _) h c _ _ .always fun _ => rfl)

/-- The one write of FREQSTART opens the gate and stores `CCTL(c)`, which has TB = 0 (R59). -/
theorem run_write_cctlTb (h : s.par.Wf) (hr : noImmediate (s.ch.get c)) :
    (Act.write (.cntctl c) (.cctlTb c)).run s =
      .cont (s.modHw c fun w => { w with cntctl := cctlWord s.par.cctl (s.ch.get c), tb := true }) :=
  run_write_ok h (writeCntctl_tb h c hr)

end

/-- Settles O14: the record, then the pair of registers, which is written with constants. -/
theorem setComparatorMeaning : Obligations.SetComparatorMeaning := by
  unfold Obligations.SetComparatorMeaning
  intro c d s
  refine ⟨encode_channel rfl rfl, encode_channel rfl rfl, fun h => ⟨command_accepted h _, command_accepted h _⟩,
    fun h => ⟨?_, ?_⟩⟩
  · exact setter_leads (ok := true) h rfl h.noCommand fun p => leads_setCompa (s := { s with prog := p }) h.wf
  · exact setter_leads (ok := true) h rfl h.noCommand fun p => leads_setCompb (s := { s with prog := p }) h.wf

/-! ## FREQSTART (R109) -/

/-- Settles O15: the mode check, then one write, which reads the record and leaves it alone. -/
theorem freqstartMeaning : Obligations.FreqstartMeaning := by
  unfold Obligations.FreqstartMeaning
  intro c s
  obtain ⟨-, rejected⟩ := outOfRangeIsInvalidParameter
  refine ⟨encode_channel rfl rfl, rejected c s, fun h hm => setter_performs h (beq_iff_eq.mpr hm) _,
    fun h hr hm => ?_⟩
  exact setter_leads h (beq_iff_eq.mpr hm) h.noCommand fun p =>
    Leads.single (run_write_cctlTb (s := { s with prog := p }) h.wf (noImmediate_of_recOk hr))

/-! ## WRITE (R110) -/

/-- Changes of the hardware of one channel compose. -/
theorem modHw_modHw (s : State) (c : Chan) (f g : HwChan → HwChan) :
    (s.modHw c f).modHw c g = s.modHw c fun w => g (f w) := by simp [State.modHw]

section
variable {c : Chan} {d : Word} {s : State}

/-- The pair of WRITE, low then high. -/
theorem leads_writePair (h : s.par.Wf) :
    Leads (writePair (.preLo c) (.preHi c) (.const (lo16 d)) (.const (hi16 d)) .always) s
      (s.modHw c fun w => { w with preLo := lo16 d, preHi := hi16 d }) :=
  leads_preload h c _ _ .always (fun _ => rfl) fun _ => rfl

/-- With `wrmode = 0` the force-load does not happen. -/
theorem leads_write_preload (h : s.par.Wf) (hw : (s.ch.get c).wrmode = 0) :
    Leads (writeSteps c d) s (s.modHw c fun w => { w with preLo := lo16 d, preHi := hi16 d }) := by
  have off : (s.ch.get c).wrmode ≠ 1 := by rw [hw]; decide
  exact (leads_writePair h).append
    (Leads.skip (g := .forceLoad c) (beq_eq_false_iff_ne.mpr off) (by simp [forceSteps, Act.under]))

/-- With `wrmode = 1` the counter takes the value just written to the preload (R105). -/
theorem leads_write_load (h : s.par.Wf) (hr : noImmediate (s.ch.get c)) (hw : (s.ch.get c).wrmode = 1) :
    Leads (writeSteps c d) s (s.modHw c fun w =>
      { w with preLo := lo16 d, preHi := hi16 d, cntctl := cctlWord s.par.cctl (s.ch.get c), cnt := d }) := by
  refine ((leads_writePair h).append
    (leads_force (s := s.modHw c _) h c .load (.forceLoad c) (fun _ => beq_iff_eq.mpr hw) hr)).to ?_
  simp only [modHw_modHw, forceHw, compose_halves, modHw_par, modHw_ch]

theorem exec_write_preload (h : s.Ready) (hw : (s.ch.get c).wrmode = 0) :
    exec (.write c d) s = .next ((s.modHw c fun w => { w with preLo := lo16 d, preHi := hi16 d }).respond 0 0) :=
  setter_leads (ok := true) h rfl h.noCommand fun p => leads_write_preload (s := { s with prog := p }) h.wf hw

theorem exec_write_load (h : s.Ready) (hr : recOk (s.ch.get c) = true) (hw : (s.ch.get c).wrmode = 1) :
    exec (.write c d) s =
      .next ((s.modHw c fun w =>
        { w with preLo := lo16 d, preHi := hi16 d, cntctl := cctlWord s.par.cctl (s.ch.get c), cnt := d }).respond
          0 0) :=
  setter_leads (ok := true) h rfl h.noCommand fun p =>
    leads_write_load (s := { s with prog := p }) h.wf (noImmediate_of_recOk hr) hw

end

/-- Settles O16: the condition of the force-load reads `wrmode`, which the pair leaves alone. -/
theorem writeMeaning : Obligations.WriteMeaning := by
  unfold Obligations.WriteMeaning
  intro c d s
  exact ⟨encode_channel rfl rfl, fun h => command_accepted h _, exec_write_preload, exec_write_load⟩

/-! ## The policies of a channel (R112 to R114) -/

/-- Settles O19: each command is one micro-step, which changes one field of the record. -/
theorem policySettersMeaning : Obligations.PolicySettersMeaning := by
  unfold Obligations.PolicySettersMeaning
  intro c d s
  exact ⟨encode_channel rfl rfl, encode_channel rfl rfl, encode_channel rfl rfl,
    fun h hd => exec_invalid h (atMost_eq_false_iff.mpr hd), fun h hd => exec_invalid h (atMost_eq_false_iff.mpr hd),
    fun h hd => setter_performs h (upTo_iff.mpr hd) _, fun h => command_accepted h _,
    fun h hd => setter_performs h (upTo_iff.mpr hd) _,
    fun h hd => setter_modRec h (upTo_iff.mpr hd) fun _ => rfl,
    fun h => setter_modRec (ok := true) h rfl fun _ => rfl,
    fun h hd => setter_modRec h (upTo_iff.mpr hd) fun _ => rfl⟩

end Sys2Proof.Machine

/-!
PROOFS. READ: the latch in the modes 0 and 2 (O17), the wait of mode 1 (O18). READ is u0, the wait, and what comes after
the wait (`readFetch`), which is the same whether READ waited or not. Each part is run from a ready block in the middle
of a command (`State.amid`), and the response ends the middle.
-/

namespace Sys2Proof.Machine

/-! ## A ready block, and the middle of a command in it -/

/-- `s` in the middle of a command: its locals are `l`, its remaining micro-steps `ms` (R246). -/
def State.amid (s : State) (l : Locals) (ms : List Micro) : State := { s with loc := l, prog := ms }

section
variable {s : State} {c : Chan} {l : Locals} {ms : List Micro}

theorem State.Ready.modHw (h : s.Ready) (c : Chan) (f : HwChan → HwChan) : (s.modHw c f).Ready :=
  ⟨h.wf, h.live, h.noCommand, h.noHandler, h.quiet, h.unmasked, h.outside⟩

theorem State.Ready.modRec (h : s.Ready) (c : Chan) (f : ChanRec → ChanRec) : (s.modRec c f).Ready :=
  ⟨h.wf, h.live, h.noCommand, h.noHandler, h.quiet, h.unmasked, h.outside⟩

theorem State.Ready.respond (h : s.Ready) (code : BitVec 4) (v : Word) : (s.respond code v).Ready :=
  ⟨h.wf, h.live, h.noCommand, h.noHandler, h.quiet, h.unmasked, h.outside⟩

/-- The position and the locals of a command end with its response (R80). -/
theorem amid_respond (h : s.Ready) (l : Locals) (code : BitVec 4) (v : Word) :
    (s.amid l []).respond code v = s.respond code v := by
  rw [State.amid, ← h.noCommand]
  rfl

/-- While no handler runs, a quiet run is that of the command (log 9). -/
theorem runQuiet_command (hq : s.hprog = []) : runQuiet s = runSteps .host s.prog s := by
  rw [runQuiet, hq, runSteps_nil, setPosition_irq_self hq]

/-- With nothing in progress there is nothing to run. -/
theorem runQuiet_ready (h : s.Ready) : runQuiet s = .next s := by
  rw [runQuiet_command h.noHandler, h.noCommand, runSteps_nil, setPosition_host_self h.noCommand]

/-- With the schedule used up, the step goes on with the command (log 9). -/
theorem step_amid (h : s.Ready) (hms : ms ≠ []) : step (s.amid l ms) = runSteps .host ms (s.amid l ms) := by
  have busy : ¬ (s.amid l ms).idle = true := by simp [State.idle, State.amid, hms]
  have quiet : { s.amid l ms with script := [] } = s.amid l ms := by rw [← h.quiet]; rfl
  calc step (s.amid l ms)
    _ = drive s.script (s.amid l ms) := if_neg busy
    _ = runQuiet { s.amid l ms with script := [] } := by rw [h.quiet, drive]
    _ = runQuiet (s.amid l ms) := by rw [quiet]
    _ = runSteps .host ms (s.amid l ms) := runQuiet_command h.noHandler

/-- The timer ends a READ that waits for an unavailable semaphore, with Timeout (R111, R224). -/
theorem timeoutStep_waiting {g : Guard} {rest : List Micro} (hq : s.hprog = [])
    (hp : s.prog = (Act.await c).under g :: rest) (hg : g.holds s = true) (hr : (s.ch.get c).rsem = false) :
    timeoutStep s = { s.raise timedOut with prog := [] } := by
  simp only [timeoutStep, hq, hp, Act.under, hg, hr, Bool.not_false, Bool.and_self, if_true]

/-- A step in which nothing acts but the timer of a waiting READ leaves the block as READ found it. -/
theorem step_timeout {g : Guard} {rest : List Micro} (h : s.Ready) (hms : ms = (Act.await c).under g :: rest)
    (hg : g.holds { s.amid l ms with script := [.timeout] } = true) (hr : (s.ch.get c).rsem = false) :
    step { s.amid l ms with script := [.timeout] } = .next (s.raise timedOut) := by
  have busy : ¬ { s.amid l ms with script := [.timeout] }.idle = true := by simp [State.idle, State.amid, hms]
  have fires := timeoutStep_waiting (s := { s.amid l ms with script := [.timeout] }) h.noHandler hms hg hr
  have left : { (s.amid l []).raise timedOut with script := [] } = s.raise timedOut := by
    rw [State.raise, amid_respond h, ← h.quiet]
    rfl
  calc step { s.amid l ms with script := [.timeout] }
    _ = drive [.timeout] { s.amid l ms with script := [.timeout] } := if_neg busy
    _ = drive [] (timeoutStep { s.amid l ms with script := [.timeout] }) := if_neg busy
    _ = runQuiet { (s.amid l []).raise timedOut with script := [] } := by rw [fires]; rfl
    _ = .next (s.raise timedOut) := by rw [left]; exact runQuiet_ready (h.respond _ _)

end

/-! ## READ in parts (R111) -/

/-- u4 and u5 of READ: the pair of the latch in a masked section, and the response (R111). -/
def readTail (c : Chan) : List Micro :=
  [Act.maskOpen.always, (Act.readLo c).always, (Act.readHi c).always, Act.maskClose.always] ++ [(Act.ret .count).always]

/-- READ after its wait: the forced store of mode 2, then the latch (R111). -/
def readFetch (c : Chan) : List Micro := forceSteps c .sto (.readMode 2) ++ readTail c

/-- READ from its wait on, which is also what is left of it while it waits (R111). -/
def readAwaiting (c : Chan) : List Micro := (Act.await c).under (.readMode 1) :: readFetch c

theorem readAwaiting_ne_nil (c : Chan) : readAwaiting c ≠ [] := List.cons_ne_nil _ _

/-- The locals of READ after u0. -/
def State.readLocals (s : State) (c : Chan) : Locals := { s.loc with m := (s.ch.get c).rdmode }

section
variable {c : Chan} {s : State} {l : Locals} {ms : List Micro}

/-- READ is u0, which takes the mode, and then `readAwaiting`. -/
theorem exec_read (h : s.Ready) :
    exec (.read c) s = runSteps .host (readAwaiting c) (s.amid (s.readLocals c) (readSteps c)) :=
  (command_ready h _).trans (runSteps_cont rfl)

/-- The last part of READ answers the latch. -/
theorem runSteps_readTail (h : s.Ready) :
    runSteps .host (readTail c) (s.amid l ms) = .next (s.respond 0 (s.hw.get c).lat) := by
  rw [readTail, (leads_readTail (s := s.amid l ms) h.wf h.unmasked c).ret]
  simp only [Query.eval, compose_halves]
  exact congrArg _ (amid_respond h l 0 _)

/-- In any mode but 2 nothing is stored before the latch is read. -/
theorem runSteps_readFetch (h : s.Ready) (hm : l.m ≠ 2) :
    runSteps .host (readFetch c) (s.amid l ms) = .next (s.respond 0 (s.hw.get c).lat) :=
  (runSteps_skip_all (g := .readMode 2) (beq_eq_false_iff_ne.mpr hm) (by simp [forceSteps, Act.under])).trans
    (runSteps_readTail h)

/-- In mode 2 the counter is stored before the latch is read (R105). -/
theorem runSteps_readFetch_store (h : s.Ready) (hr : noImmediate (s.ch.get c)) (hm : l.m = 2) :
    runSteps .host (readFetch c) (s.amid l ms) =
      .next ((s.modHw c fun w =>
        { w with cntctl := cctlWord s.par.cctl (s.ch.get c), lat := w.cnt }).respond 0 (s.hw.get c).cnt) := by
  have stored := leads_force (s := s.amid l ms) h.wf c .sto (.readMode 2) (fun _ => beq_iff_eq.mpr hm) hr
  have fetched := runSteps_readTail (c := c) (l := l) (ms := ms)
    (h.modHw c fun w => { w with cntctl := cctlWord s.par.cctl (s.ch.get c), lat := w.cnt })
  rw [modHw_hw, Quad.get_set_self] at fetched
  exact (stored .host _).trans fetched

/-! ## The wait (R111, R224) -/

/-- In any mode but 1 READ does not wait. -/
theorem runSteps_readAwaiting (hm : l.m ≠ 1) :
    runSteps .host (readAwaiting c) (s.amid l ms) = runSteps .host (readFetch c) (s.amid l ms) :=
  runSteps_skip (beq_eq_false_iff_ne.mpr hm)

/-- In mode 1 the wait takes place. -/
theorem run_awaiting (hm : l.m = 1) :
    ((Act.await c).under (.readMode 1)).run (s.amid l ms) = (Act.await c).run (s.amid l ms) :=
  if_pos (beq_iff_eq.mpr hm)

theorem run_await_available (hs : (s.ch.get c).rsem = true) :
    (Act.await c).run s = .cont (s.modRec c fun r => { r with rsem := false }) := by
  simp only [Act.run, hs, if_true]

theorem run_await_timedOut (hs : (s.ch.get c).rsem = false) (ht : (s.ch.get c).rdtout = 0) :
    (Act.await c).run s = .ended (s.raise timedOut) := by
  simp only [Act.run, hs, ht, Bool.false_eq_true, if_false, if_true]

theorem run_await_blocked (hs : (s.ch.get c).rsem = false) (ht : (s.ch.get c).rdtout ≠ 0) :
    (Act.await c).run s = .blocked := by
  simp only [Act.run, hs, ht, Bool.false_eq_true, if_false]

/-- An available semaphore is consumed, and the latch is returned. -/
theorem runSteps_readAwaiting_available (h : s.Ready) (hm : l.m = 1) (hs : (s.ch.get c).rsem = true) :
    runSteps .host (readAwaiting c) (s.amid l ms) =
      .next ((s.modRec c fun r => { r with rsem := false }).respond 0 (s.hw.get c).lat) := by
  have noStore : l.m ≠ 2 := by rw [hm]; decide
  have consumed := (run_awaiting hm).trans (run_await_available (s := s.amid l ms) hs)
  have fetched := runSteps_readFetch (c := c) (l := l) (ms := ms) (h.modRec c fun r => { r with rsem := false }) noStore
  exact (runSteps_cont consumed).trans fetched

/-- An unavailable semaphore ends a READ with no timeout at once. -/
theorem runSteps_readAwaiting_timedOut (h : s.Ready) (hm : l.m = 1) (hs : (s.ch.get c).rsem = false)
    (ht : (s.ch.get c).rdtout = 0) : runSteps .host (readAwaiting c) (s.amid l ms) = .next (s.raise timedOut) := by
  have ends := (run_awaiting hm).trans (run_await_timedOut (s := s.amid l ms) hs ht)
  exact (runSteps_ended ends).trans (congrArg _ (amid_respond h l _ _))

/-- An unavailable semaphore keeps a READ with a timeout at its wait. -/
theorem runSteps_readAwaiting_blocked (hm : l.m = 1) (hs : (s.ch.get c).rsem = false) (ht : (s.ch.get c).rdtout ≠ 0) :
    runSteps .host (readAwaiting c) (s.amid l ms) = .next (s.amid l (readAwaiting c)) := by
  have blocks := (run_awaiting hm).trans (run_await_blocked (s := s.amid l ms) hs ht)
  simp only [readAwaiting, runSteps, blocks]
  rfl

/-- A semaphore that is set and then consumed is as it was if it was unavailable. -/
theorem modRec_rsem_set_clear (hs : (s.ch.get c).rsem = false) :
    ((s.modRec c fun r => { r with rsem := true }).modRec c fun r => { r with rsem := false }) = s := by
  have same : { s.ch.get c with rsem := false } = s.ch.get c := by rw [← hs]
  simp only [State.modRec, Quad.get_set_self, Quad.set_set, same, Quad.set_get_self]

end

/-- READ with `rdmode = 0` answers the latch. -/
theorem exec_read_latched {c : Chan} {s : State} (h : s.Ready) (hm : (s.ch.get c).rdmode = 0) :
    exec (.read c) s = .next (s.respond 0 (s.hw.get c).lat) := by
  have noWait : (s.ch.get c).rdmode ≠ 1 := by rw [hm]; decide
  have noStore : (s.ch.get c).rdmode ≠ 2 := by rw [hm]; decide
  rw [exec_read h, runSteps_readAwaiting noWait, runSteps_readFetch h noStore]

/-- Settles O17: in neither mode does READ wait; in mode 2 the latch it reads is the one it has just stored. -/
theorem readReturnsLatchedCount : Obligations.ReadReturnsLatchedCount := by
  unfold Obligations.ReadReturnsLatchedCount
  intro c s
  refine ⟨encode_channel rfl rfl, fun h => command_accepted h _, exec_read_latched, fun h hr hm => ?_⟩
  have noWait : (s.ch.get c).rdmode ≠ 1 := by rw [hm]; decide
  rw [exec_read h, runSteps_readAwaiting noWait, runSteps_readFetch_store h (noImmediate_of_recOk hr) hm]

/-- Settles O18: the state of a READ that waits is the one it was issued in, but for its position and its locals, and
those end with it. -/
theorem waitingReadMeaning : Obligations.WaitingReadMeaning := by
  unfold Obligations.WaitingReadMeaning
  intro c s h hm
  have mode : (s.readLocals c).m = 1 := hm
  refine ⟨fun hs => (exec_read h).trans (runSteps_readAwaiting_available h mode hs),
    fun hs ht => (exec_read h).trans (runSteps_readAwaiting_timedOut h mode hs ht), fun hs ht => ?_⟩
  refine ⟨s.amid (s.readLocals c) (readAwaiting c), (exec_read h).trans (runSteps_readAwaiting_blocked mode hs ht),
    rfl, rfl, readAwaiting_ne_nil c, ?waits, ?timer, ?semaphore⟩
  case waits => exact (step_amid h (readAwaiting_ne_nil c)).trans (runSteps_readAwaiting_blocked mode hs ht)
  case timer => exact step_timeout h rfl (beq_iff_eq.mpr mode) hs
  case semaphore =>
    have signalled := h.modRec c fun r => { r with rsem := true }
    have available : ((s.modRec c fun r => { r with rsem := true }).ch.get c).rsem = true := by simp
    have consumed := (step_amid signalled (readAwaiting_ne_nil c)).trans
      (runSteps_readAwaiting_available signalled mode available)
    rw [modRec_rsem_set_clear hs] at consumed
    exact consumed

end Sys2Proof.Machine

/-!
PROOFS. A written count is read back (O20, test vector S7). The preload, which CORE never changes, carries the value
from WRITE to SET.LOAD; the force-load halts the channel, and from there on CORE leaves the counter, and then the latch,
alone (`coreEvents_quiescent`).
-/

namespace Sys2Proof.Machine

/-! ## What CORE events leave unchanged (R39 to R43) -/

section
variable {s : State} {c : Chan}

/-- A CORE event changes the hardware of channels and nothing else. -/
theorem coreStep_frame (e : CoreEvent) (s : State) : coreStep e s = { s with hw := (coreStep e s).hw } := by
  obtain h | ⟨c, n, l, p, g, h, -⟩ := coreStep_cases e s
  · rw [h]
  · rw [h]; rfl

theorem coreEvents_frame (es : List CoreEvent) (s : State) :
    coreEvents es s = { s with hw := (coreEvents es s).hw } := by
  induction es generalizing s with
  | nil => rfl
  | cons e es ih =>
    calc coreEvents es (coreStep e s)
      _ = { coreStep e s with hw := (coreEvents es (coreStep e s)).hw } := ih _
      _ = { s with hw := (coreEvents es (coreStep e s)).hw } := by rw [coreStep_frame e s]

theorem coreEvents_ch (es : List CoreEvent) (s : State) : (coreEvents es s).ch = s.ch := by rw [coreEvents_frame]

theorem State.Ready.coreEvents (h : s.Ready) (es : List CoreEvent) : (coreEvents es s).Ready := by
  rw [coreEvents_frame]
  exact ⟨h.wf, h.live, h.noCommand, h.noHandler, h.quiet, h.unmasked, h.outside⟩

/-- A CORE event leaves the preload of every channel. -/
theorem coreStep_preload (e : CoreEvent) (s : State) (c : Chan) :
    ((coreStep e s).hw.get c).preLo = (s.hw.get c).preLo ∧ ((coreStep e s).hw.get c).preHi = (s.hw.get c).preHi := by
  obtain h | ⟨d, n, l, p, g, h, -⟩ := coreStep_cases e s <;> rw [h]
  · exact ⟨rfl, rfl⟩
  · rw [modHw_get]
    split <;> exact ⟨rfl, rfl⟩

theorem coreEvents_preload (es : List CoreEvent) (s : State) (c : Chan) :
    ((coreEvents es s).hw.get c).preLo = (s.hw.get c).preLo ∧
      ((coreEvents es s).hw.get c).preHi = (s.hw.get c).preHi := by
  induction es generalizing s with
  | nil => exact ⟨rfl, rfl⟩
  | cons e es ih =>
    obtain ⟨lo, hi⟩ := coreStep_preload e s c
    obtain ⟨los, his⟩ := ih (coreStep e s)
    exact ⟨los.trans lo, his.trans hi⟩

/-! ## Halted channels (R40) -/

/-- The record of a channel that is halted, with its three conditions disabled. -/
def Halted (r : ChanRec) : Prop := r.mode = 0 ∧ r.ldc = 0 ∧ r.clc = 0 ∧ r.stc = 0

/-- A channel whose CNTCTL mirrors a halted record is quiescent. -/
theorem quiescent_of_halted (h : s.par.Wf) (hr : Halted (s.ch.get c))
    (hw : (s.hw.get c).cntctl = cctlWord s.par.cctl (s.ch.get c)) :
    quiescent s.par.cctl (s.hw.get c).cntctl = true := by
  obtain ⟨-, hl, -, -⟩ := h
  obtain ⟨mode, ldc, clc, stc⟩ := hr
  rw [hw, quiescent_cctlWord hl, mode, ldc, clc, stc]
  rfl

/-- A command that leaves `CCTL(c)` of a halted channel in CNTCTL leaves a count and a latch that no CORE event
changes. -/
theorem coreEvents_halted {f : HwChan → HwChan} (h : s.par.Wf) (hh : Halted (s.ch.get c))
    (hf : (f (s.hw.get c)).cntctl = cctlWord s.par.cctl (s.ch.get c)) (es : List CoreEvent) :
    ((coreEvents es ((s.modHw c f).respond 0 0)).hw.get c).cnt = (f (s.hw.get c)).cnt ∧
      ((coreEvents es ((s.modHw c f).respond 0 0)).hw.get c).lat = (f (s.hw.get c)).lat := by
  have quiet := quiescent_of_halted (s := (s.modHw c f).respond 0 0) (c := c) h hh (by simpa using hf)
  simpa using coreEvents_quiescent es quiet

/-! ## The commands of the round trip -/

/-- Under either policy WRITE leaves the value in the preload, and the records as they were (R110). -/
theorem exec_write_preloads (h : s.Ready) (hr : recOk (s.ch.get c) = true) (v : Word) :
    ∃ t, exec (.write c v) s = .next t ∧ t.Ready ∧ t.ch = s.ch ∧
      compose (t.hw.get c).preLo (t.hw.get c).preHi = v := by
  have policies : ∀ w : BitVec 1, w = 0 ∨ w = 1 := by decide
  obtain hw | hw := policies (s.ch.get c).wrmode
  · exact ⟨_, exec_write_preload h hw, (h.modHw _ _).respond _ _, rfl, by simp⟩
  · exact ⟨_, exec_write_load h hr hw, (h.modHw _ _).respond _ _, rfl, by simp⟩

/-- SET.LOAD 2 of a halted channel: the count is the preload, and stays it under any CORE events (R102, R40). -/
theorem exec_setLoad_two_halted (h : s.Ready) (hr : recOk (s.ch.get c) = true) (hh : Halted (s.ch.get c))
    (es : List CoreEvent) :
    ∃ t, exec (.setLoad c 2) s = .next t ∧ t.Ready ∧ t.ch = s.ch ∧
      ((coreEvents es t).hw.get c).cnt = compose (s.hw.get c).preLo (s.hw.get c).preHi := by
  exact ⟨_, exec_setLoad_two h hr, (h.modHw _ _).respond _ _, rfl, (coreEvents_halted h.wf hh (by rfl) es).left⟩

/-- SET.STORE 1 of a halted channel: the latch is the count, and stays it under any CORE events (R104, R40). -/
theorem exec_setStore_one_halted (h : s.Ready) (hr : recOk (s.ch.get c) = true) (hh : Halted (s.ch.get c))
    (es : List CoreEvent) :
    ∃ t, exec (.setStore c 1) s = .next t ∧ t.Ready ∧ t.ch = s.ch ∧
      ((coreEvents es t).hw.get c).lat = (s.hw.get c).cnt := by
  exact ⟨_, exec_setStore_one h hr, (h.modHw _ _).respond _ _, rfl, (coreEvents_halted h.wf hh (by rfl) es).right⟩

end

/-- Settles O20: the value goes from the preload to the counter, to the latch, to the answer. -/
theorem writeLoadStoreReadRoundTrip : Obligations.WriteLoadStoreReadRoundTrip := by
  unfold Obligations.WriteLoadStoreReadRoundTrip
  intro c v s es₁ es₂ es₃ h hr mode ldc clc stc hm
  have halted : Halted (s.ch.get c) := ⟨mode, ldc, clc, stc⟩
  obtain ⟨t₁, e₁, r₁, ch₁, preload⟩ := exec_write_preloads h hr v
  have ch₁ := (coreEvents_ch es₁ t₁).trans ch₁
  rw [← ch₁] at hr halted hm
  obtain ⟨t₂, e₂, r₂, ch₂, count⟩ := exec_setLoad_two_halted (r₁.coreEvents es₁) hr halted es₂
  have ch₂ := (coreEvents_ch es₂ t₂).trans ch₂
  rw [← ch₂] at hr halted hm
  obtain ⟨t₃, e₃, r₃, ch₃, latch⟩ := exec_setStore_one_halted (r₂.coreEvents es₂) hr halted es₃
  have ch₃ := (coreEvents_ch es₃ t₃).trans ch₃
  rw [← ch₃] at hm
  refine ⟨t₁, t₂, t₃, _, e₁, e₂, e₃, exec_read_latched (r₃.coreEvents es₃) hm, rfl, ?_, ch₃.trans (ch₂.trans ch₁)⟩
  obtain ⟨lo, hi⟩ := coreEvents_preload es₁ t₁ c
  calc ((coreEvents es₃ t₃).hw.get c).lat
    _ = ((coreEvents es₂ t₂).hw.get c).cnt := latch
    _ = compose ((coreEvents es₁ t₁).hw.get c).preLo ((coreEvents es₁ t₁).hw.get c).preHi := count
    _ = v := by rw [lo, hi, preload]

end Sys2Proof.Machine

/-!
PROOFS. Interrupt control: SET.IRQEN (O21), the setters of the interrupt-control word (O22, O23), GET.IRQSTAT (O24) and
CLR.IRQSTAT (O25), which are masked sections, and the slot commands SIGINST and SIGREM (O26). As in counter control, a
command performs its list under any schedule and answers, in a ready block, the state its list leads to.
-/

namespace Sys2Proof.Machine

/-! ## Command words of format S (R82, R84) -/

/-- The KIND field of a command word stands by itself (R81). -/
theorem commandWord_eq_or (op : BitVec 8) (ch : BitVec 2) (kind : BitVec 3) :
    commandWord op ch kind = commandWord op ch 0 ||| (kind.zeroExtend 16 <<< 3) := by
  apply BitVec.eq_of_getLsbD_eq
  intro i hi
  simp only [commandWord, BitVec.getLsbD_or, BitVec.getLsbD_append, BitVec.truncate_eq_setWidth,
    BitVec.getLsbD_shiftLeft, BitVec.getLsbD_setWidth]
  by_cases zero : i < 3
  · simp [zero]
  by_cases inKind : i - 3 < 3
  · simp [zero, inKind, hi, show i - 3 < 16 by omega]
  · simp [zero, inKind, BitVec.getLsbD_of_ge kind (i - 3) (by omega)]

/-- The command word of a format S opcode is its base word with CH at bits 7:6 and KIND at bits 5:3. -/
theorem wordS_eq_wordFor (op : BitVec 8) (c : Chan) (kind : BitVec 3) :
    wordS op c kind = wordFor (op ++ 0#8) c ||| (kind.zeroExtend 16 <<< 3) := by
  rw [← wordC_eq_wordFor]
  exact commandWord_eq_or op (chanField c) kind

/-- A format S command is encoded as its base word with the channel and the kind added. -/
theorem encode_slot {i : Instr} {op : BitVec 8} {base : BitVec 16} {c : Chan} {kind : BitVec 3} {d : Word}
    (h : encode i = (wordS op c kind, d)) (hb : op ++ 0#8 = base) :
    encode i = (wordFor base c ||| (kind.zeroExtend 16 <<< 3), d) := by
  rw [h, wordS_eq_wordFor, hb]

/-! ## Operands (R23, R87) -/

/-- A boolean operand in range is true if it is 1 (R87). -/
theorem asBool_of_le_one {d : Word} (h : d.toNat ≤ 1) : asBool d = (d == 1) := by
  obtain rfl | rfl : d = 0 ∨ d = 1 := by bv_omega
  · rfl
  · rfl

/-- The KIND field with the number of an event kind names it (R23). -/
theorem kindOfField_of_index {kind : BitVec 3} {k : Kind} (h : k.index = kind.toNat) : kindOfField kind = some k := by
  unfold kindOfField
  rw [← h]
  cases k <;> rfl

/-! ## Commands in a ready block -/

section
variable {s t : State} {c : Chan} {ok : Bool} {steps : List Micro}

/-- A setter of a field of the interrupt-control word (R131 to R134). -/
theorem setter_setIctl {a : Act} {f : ChanRec → ChanRec} (h : s.Ready) (hok : ok = true)
    (ha : ∀ u, a.run u = .cont (u.modRec c f)) :
    setter (require ok) [a.always, rewriteIctl c] s = .next ((s.setIctl c f).respond 0 0) :=
  setter_leads h hok h.noCommand fun p =>
    leads_setIctl (s := { s with prog := p }) (g := .always) h.wf (fun _ => rfl) (ha _)

/-- A command with a result answers, in a ready block, the value of its query where its list leads. -/
theorem command_leads {q : Query} (h : s.Ready) (ht : t.prog = [])
    (hl : ∀ p, Leads steps { s with prog := p } { t with prog := p })
    (hq : ∀ p, q.eval { t with prog := p } = q.eval t) :
    command none (steps ++ [(Act.ret q).always]) s = .next (t.respond 0 (q.eval t)) := by
  have placed : { t with prog := [] } = t := by rw [← ht]
  calc command none (steps ++ [(Act.ret q).always]) s
    _ = .next ({ t with prog := [] }.respond 0 (q.eval { t with prog := _ })) :=
      (command_ready h _).trans ((hl _).ret q .host)
    _ = .next (t.respond 0 (q.eval t)) := by rw [placed, hq]

/-- A masked section of one micro-step leads where the micro-step does, which is outside the section again (R66). -/
theorem leads_masked {a : Act} (ht : t.imask = false)
    (ha : a.run { s with imask := true } = .cont { t with imask := true }) :
    Leads [Act.maskOpen.always, a.always, Act.maskClose.always] s t := by
  have closed : { t with imask := false } = t := by rw [← ht]
  exact Leads.cons rfl (Leads.cons ha ((Leads.single rfl).to closed))

/-! ## The query and the clear of the status (R135, R136) -/

theorem run_statQuery_shadow (he : (s.ch.get c).ien = true) :
    (Act.statQuery c).run s = .cont { s with loc := { s.loc with v := (s.ch.get c).pss } } := if_pos he

theorem run_statClear_shadow {mask : BitVec 5} (he : (s.ch.get c).ien = true) :
    (Act.statClear c mask).run s = .cont (s.modRec c fun r => { r with pss := r.pss &&& ~~~mask }) := if_pos he

end

/-- Settles O21: the disabling branch is a masked section, in which `ien`, `pss` and INTCTL are written (R140). -/
theorem setIrqenMeaning : Obligations.SetIrqenMeaning := by
  unfold Obligations.SetIrqenMeaning
  intro c d s
  refine ⟨encode_channel rfl rfl, fun h hd => exec_invalid h (atMost_eq_false_iff.mpr hd),
    fun h => ⟨setter_performs h rfl _, setter_performs h rfl _⟩, fun h => ⟨?disabled, ?enabled⟩⟩
  case disabled =>
    exact setter_leads h rfl h.noCommand fun p => leads_setIen (s := { s with prog := p }) h.wf h.unmasked c false
  case enabled =>
    exact setter_leads h rfl h.noCommand fun p =>
      leads_ienOn (s := { s with prog := p }) h.wf c .always fun _ => rfl

/-- Settles O22: the field of the record, then INTCTL. -/
theorem setConditionIrqMeaning : Obligations.SetConditionIrqMeaning := by
  unfold Obligations.SetConditionIrqMeaning
  intro c d s
  exact ⟨encode_channel rfl rfl, encode_channel rfl rfl,
    fun h hd => exec_invalid h (atMost_eq_false_iff.mpr hd), fun h hd => exec_invalid h (atMost_eq_false_iff.mpr hd),
    fun h hd => setter_performs h (upTo_iff.mpr hd) _, fun h hd => setter_performs h (upTo_iff.mpr hd) _,
    fun h hd => setter_setIctl h (upTo_iff.mpr hd) fun _ => rfl,
    fun h hd => setter_setIctl h (upTo_iff.mpr hd) fun _ => rfl⟩

/-- Settles O23: as the conditions, with a flag for which the operand stands. -/
theorem setSourceIrqMeaning : Obligations.SetSourceIrqMeaning := by
  unfold Obligations.SetSourceIrqMeaning
  intro c d s
  refine ⟨encode_channel rfl rfl, encode_channel rfl rfl, fun h hd => ?rejected, fun h hd => ?performed,
    fun h hd => ?answered⟩
  case rejected =>
    exact ⟨exec_invalid h (atMost_eq_false_iff.mpr hd), exec_invalid h (atMost_eq_false_iff.mpr hd)⟩
  case performed =>
    rw [← asBool_of_le_one hd]
    exact ⟨setter_performs h (upTo_iff.mpr hd) _, setter_performs h (upTo_iff.mpr hd) _⟩
  case answered =>
    rw [← asBool_of_le_one hd]
    exact ⟨setter_setIctl h (upTo_iff.mpr hd) fun _ => rfl, setter_setIctl h (upTo_iff.mpr hd) fun _ => rfl⟩

/-- Settles O24: the value goes through a local of the command, which ends with the response. -/
theorem getIrqstatMeaning : Obligations.GetIrqstatMeaning := by
  unfold Obligations.GetIrqstatMeaning
  intro c s
  refine ⟨encode_channel rfl rfl, fun h => command_accepted h _, fun h he => ?shadow, fun h he => ?polled⟩
  case shadow =>
    exact command_leads (q := .status) (t := { s with loc := { s.loc with v := (s.ch.get c).pss } }) h h.noCommand
      (fun p => leads_masked h.unmasked (run_statQuery_shadow (s := { s with prog := p, imask := true }) he))
      fun _ => rfl
  case polled =>
    exact command_leads (q := .status)
      (t := { s with draws := s.draws + 1, loc := { s.loc with v := (s.hw.get c).pend } }) h h.noCommand
      (fun p => leads_masked h.unmasked (run_statQuery_polled (s := { s with prog := p, imask := true }) h.wf c he))
      fun _ => rfl

/-- Settles O25: the clear goes to the shadow or to the flags of the one channel. -/
theorem clrIrqstatMeaning : Obligations.ClrIrqstatMeaning := by
  unfold Obligations.ClrIrqstatMeaning
  intro c d s
  refine ⟨encode_channel rfl rfl, fun h hd => exec_invalid h (atMost_eq_false_iff.mpr hd),
    fun h hd => setter_performs h (upTo_iff.mpr hd) _, fun h hd he => ?shadow, fun h hd he => ?polled⟩
  case shadow =>
    exact setter_leads h (upTo_iff.mpr hd) h.noCommand fun p =>
      leads_masked h.unmasked (run_statClear_shadow (s := { s with prog := p, imask := true }) he)
  case polled =>
    exact setter_leads h (upTo_iff.mpr hd) h.noCommand fun p =>
      leads_masked h.unmasked (run_statClear_polled (s := { s with prog := p, imask := true }) h.wf c _ he)

/-! ## The slot commands (R137, R138) -/

section
variable {c : Chan} {kind : BitVec 3} {k : Kind} {d : Word} {s : State}

theorem exec_siginst (hk : kindOfField kind = some k) :
    exec (.siginst c kind d) s =
      setter (slotEmptyCheck ((s.ch.get c).sig.get k)) [(Act.setSig c k (some d)).always] s := by
  simp only [exec, execSiginst, hk]

theorem exec_sigrem (hk : kindOfField kind = some k) :
    exec (.sigrem c kind) s =
      setter (slotFullCheck ((s.ch.get c).sig.get k)) [(Act.setSig c k none).always] s := by
  simp only [exec, execSigrem, hk]

theorem slotEmptyCheck_of_ne_none {o : Option Word} (h : o ≠ none) : slotEmptyCheck o = some signalInstalled := by
  cases o with
  | none => exact absurd rfl h
  | some token => rfl

theorem slotFullCheck_of_ne_none {o : Option Word} (h : o ≠ none) : slotFullCheck o = none := by
  cases o with
  | none => exact absurd rfl h
  | some token => rfl

end

/-- Settles O26: the KIND field names an event kind, and what its slot holds decides the check. -/
theorem slotCommandsMeaning : Obligations.SlotCommandsMeaning := by
  unfold Obligations.SlotCommandsMeaning
  intro c kind d s
  refine ⟨encode_slot rfl rfl, encode_slot rfl rfl, fun h hk => ?_, fun k hk => ?_⟩
  · have out : decide (kind.toNat ≤ 4) = false := decide_eq_false (Nat.not_le.mpr hk)
    exact ⟨exec_invalid h out, exec_invalid h out⟩
  rw [Performs, Performs, exec_siginst (kindOfField_of_index hk), exec_sigrem (kindOfField_of_index hk)]
  refine ⟨fun h full => ?_, fun h empty => ?_, fun h empty => ?_, fun h full => ?_, fun h empty => ?_,
    fun h full => ?_⟩
  · rw [slotEmptyCheck_of_ne_none full]
    exact command_rejected h _ _
  · rw [empty]
    exact command_rejected h _ _
  · rw [empty]
    exact command_accepted h _
  · rw [slotFullCheck_of_ne_none full]
    exact command_accepted h _
  · rw [empty]
    exact setter_modRec (ok := true) h rfl fun _ => rfl
  · rw [slotFullCheck_of_ne_none full]
    exact setter_modRec (ok := true) h rfl fun _ => rfl

end Sys2Proof.Machine

/-!
PROOFS. Disabling a channel ends with its shadow zero under every schedule (O57). SET.IRQEN c, 0 goes through `ien <- 0`
and `pss <- 0`; from each on, every other agent keeps what it has established, because only a command sets `ien` and
the shadow of a disabled channel never becomes nonzero. `kept_precedes` goes along the command's list, one micro-step at
a time.
-/

namespace Sys2Proof.Machine

/-! ## A command that stands at a micro-step -/

/-- A micro-step of the handler leaves the command where it is (R246). -/
theorem takeMicro_irq_prog {m : Micro} {rest : List Micro} {s t : State} (h : takeMicro .irq m rest s = .next t) :
    t.prog = s.prog := by
  obtain ⟨u, hu, rfl⟩ | ⟨u, hu, rfl⟩ | ⟨-, rfl⟩ := takeMicro_cases h
  · obtain ⟨eprog, -⟩ := Micro.run_place hu
    exact eprog
  · obtain ⟨-, -, code, v, rfl⟩ | ⟨-, -, result, rfl⟩ := Act.run_ended (Micro.run_ended hu)
    · rfl
    · rfl
  · rfl

theorem irqStep_prog (s : State) : (irqStep s).prog = s.prog := by
  obtain ⟨-, e⟩ | ⟨-, -, e⟩ | ⟨-, -, e⟩ := irqStep_cases s
  · rw [e]
  · rw [e, enterHandler_prog]
  · rw [e]

/-- The command stands at `m` with `J`, or `K` holds. -/
def Precedes (m : Micro) (rest : List Micro) (J K : State → Prop) (s : State) : Prop :=
  (s.prog = m :: rest ∧ J s) ∨ K s

/-- While a command stands at a micro-step with `J`, and the micro-step takes it to `K`, every agent keeps that. -/
theorem kept_precedes {J K : State → Prop} {m : Micro} {rest : List Micro} (kJ : Kept J) (kK : Kept K)
    (hm : ∀ c, m.act ≠ .await c)
    (run : ∀ {s t : State}, J (s.setPosition .host (m :: rest)) → takeMicro .host m rest s = .next t → K t) :
    Kept (Precedes m rest J K) where
  handler hj h := by
    obtain ⟨hp, hj⟩ | hk := hj
    · exact .inl ⟨(takeMicro_irq_prog h).trans hp, kJ.handler hj h⟩
    · exact .inr (kK.handler hk h)
  command hr hj h := by
    obtain ⟨hp, hj⟩ | hk := hj
    · obtain ⟨rfl, rfl⟩ := List.cons.inj hp
      exact .inr (run hj h)
    · exact .inr (kK.command hr hk h)
  core {s} e hj := by
    obtain ⟨-, -, -, same, -⟩ := coreStep_same e s
    exact hj.imp (fun ⟨hp, hj⟩ => ⟨same.trans hp, kJ.core e hj⟩) (kK.core e)
  irq {s} hj := hj.imp (fun ⟨hp, hj⟩ => ⟨(irqStep_prog s).trans hp, kJ.irq hj⟩) kK.irq
  timeout {s} hj := by
    obtain ⟨hp, hj⟩ | hk := hj
    · obtain e | ⟨g, c, after, -, hw, -⟩ := timeoutStep_cases s
      · rw [e]
        exact .inl ⟨hp, hj⟩
      · obtain ⟨rfl, -⟩ := List.cons.inj (hp.symm.trans hw)
        exact absurd rfl (hm c)
    · exact .inr (kK.timeout hk)
  present p hj := hj.imp (fun ⟨hp, hj⟩ => ⟨hp, kJ.present p hj⟩) (kK.present p)
  script es hj := hj.imp (fun ⟨hp, hj⟩ => ⟨hp, kJ.script es hj⟩) (kK.script es)

/-! ## What a disabled channel keeps (R26, R140) -/

/-- `ien <- 1`, of any channel (R140). -/
def Act.enables : Act → Bool
  | .ienOn _ => true
  | _ => false

section
variable {c : Chan} {s t : State} {a : Act}

/-- Channel `c` is disabled. -/
def IenClear (c : Chan) (s : State) : Prop := (s.ch.get c).ien = false

/-- Channel `c` is disabled and its shadow is zero. -/
def ShadowClear (c : Chan) (s : State) : Prop := (s.ch.get c).ien = false ∧ (s.ch.get c).pss = 0

/-- A record change that enables no channel. -/
theorem IenClear.modRec {d : Chan} {f : ChanRec → ChanRec} (h : IenClear c s)
    (hf : ∀ x, x.ien = false → (f x).ien = false) : IenClear c (s.modRec d f) := by
  rw [IenClear, modRec_get]
  split
  · exact hf _ h
  · exact h

/-- No action but `ien <- 1` enables a channel. -/
theorem IenClear.run (ha : a.enables = false) (hs : IenClear c s) (h : a.run s = .cont t) : IenClear c t := by
  cases a with
  | write | await | readLo | readHi | statQuery | statClear | hPend0 | hPend1 | hFold | hCntLo | hCntHi | hSem
  | hNotify | hOwn | pssZero =>
    obtain ⟨p, r, e⟩ := ((Act.run_minor rfl s).apply h).records c
    rw [IenClear, e]
    exact hs
  | setMode | setLdc | setClc | setStc | setTst | setCmpA | setCmpB | setRdmode | setRdtout | setWrmode | setCmpirq
  | setCbirq | setLben | setXen | setSig | armRef | armSlave => cases h; exact hs.modRec fun _ hx => hx
  | ienOff | armMask => cases h; exact hs.modRec fun _ _ => rfl
  | zeroCtl | goDown =>
    cases h
    rw [IenClear, zeroCtl_ch, Quad.get_fill]
    rfl
  | ienOn => cases ha
  | ret | hEnd => cases h
  | _ => cases h; exact hs

/-- Nor does any give a disabled channel a nonzero shadow. -/
theorem ShadowClear.run (ha : a.enables = false) (hs : ShadowClear c s) (h : a.run s = .cont t) :
    ShadowClear c t := by
  obtain ⟨off, zero⟩ := id hs
  have off' : IenClear c t := IenClear.run ha off h
  cases hd : a.disables c with
  | false => exact ⟨off', ShadowHolds.run hd (fun _ => zero) h off'⟩
  | true =>
    cases a with
    | ienOff d =>
      cases h
      refine ⟨off', ?_⟩
      rw [modRec_get]
      split <;> exact zero
    | _ => cases hd

theorem handlerSteps_enable_none : ∀ m ∈ handlerSteps, (!m.act.enables) = true := by decide

theorem ienClear_keptByActs (c : Chan) : KeptByActs (IenClear c) (fun a => !a.enables) where
  run ha hs h := hs.run (by simpa using ha) h
  same hs hc _ _ := by rw [IenClear, hc]; exact hs
  handler := handlerSteps_enable_none

theorem shadowClear_keptByActs (c : Chan) : KeptByActs (ShadowClear c) (fun a => !a.enables) where
  run ha hs h := hs.run (by simpa using ha) h
  same hs hc _ _ := by rw [ShadowClear, hc]; exact hs
  handler := handlerSteps_enable_none

theorem true_keptByActs : KeptByActs (fun _ => True) (fun a => !a.enables) where
  run _ _ _ := trivial
  same _ _ _ _ := trivial
  handler := handlerSteps_enable_none

end

/-! ## Along the list of SET.IRQEN c, 0 (R140) -/

/-- No micro-step still to come enables a channel, and `R` holds. -/
abbrev EnablesNone (R : State → Prop) : State → Prop := Carries R fun a => !a.enables

/-- SET.IRQEN c, 0 after its micro-step `pss <- 0`. -/
def disableTail (c : Chan) : List Micro :=
  [(Act.write (.intctl c) (.ictl c)).always, Act.maskClose.always, (Act.ret .zero).always]

/-- At `pss <- 0`, with the channel disabled, or past it. -/
def PssDue (c : Chan) : State → Prop :=
  Precedes (Act.pssZero c).always (disableTail c) (EnablesNone (IenClear c)) (EnablesNone (ShadowClear c))

/-- At `ien <- 0`, or past it. -/
def IenDue (c : Chan) : State → Prop :=
  Precedes (Act.ienOff c).always ((Act.pssZero c).always :: disableTail c) (EnablesNone fun _ => True) (PssDue c)

/-- At the opening of the masked section, or past it. -/
def DisableDue (c : Chan) : State → Prop :=
  Precedes Act.maskOpen.always ((Act.ienOff c).always :: (Act.pssZero c).always :: disableTail c)
    (EnablesNone fun _ => True) (IenDue c)

theorem pssDue_kept (c : Chan) : Kept (PssDue c) := by
  refine kept_precedes (ienClear_keptByActs c).kept (shadowClear_keptByActs c).kept nofun fun {s t} hj h => ?_
  obtain ⟨off, command, handler⟩ := hj
  cases h
  have off : IenClear c (s.modRec c fun r => { r with pss := 0 }) := IenClear.modRec (s := s) off fun _ hx => hx
  exact ⟨⟨off, by simp⟩, (List.forall_mem_cons.mp command).right, handler⟩

theorem ienDue_kept (c : Chan) : Kept (IenDue c) := by
  refine kept_precedes true_keptByActs.kept (pssDue_kept c) nofun fun {s t} hj h => ?_
  obtain ⟨-, command, handler⟩ := hj
  cases h
  exact .inl ⟨rfl, by simp [IenClear], (List.forall_mem_cons.mp command).right, handler⟩

theorem disableDue_kept (c : Chan) : Kept (DisableDue c) := by
  refine kept_precedes true_keptByActs.kept (ienDue_kept c) nofun fun {s t} hj h => ?_
  obtain ⟨-, command, handler⟩ := hj
  cases h
  exact .inl ⟨rfl, trivial, (List.forall_mem_cons.mp command).right, handler⟩

/-- With no micro-step to come nothing is due. -/
theorem DisableDue.done {c : Chan} {t : State} (h : DisableDue c t) (hp : t.prog = []) : ShadowClear c t := by
  have none_left : ∀ {m : Micro} {rest : List Micro}, t.prog ≠ m :: rest := fun e => by rw [hp] at e; cases e
  obtain ⟨e, -⟩ | ⟨e, -⟩ | ⟨e, -⟩ | clear := h
  · exact absurd e none_left
  · exact absurd e none_left
  · exact absurd e none_left
  · exact clear.here

/-- Settles O57: the command begins at the opening of its masked section, and where it ends nothing is due. -/
theorem disableZeroesShadow : Obligations.DisableZeroesShadow := by
  unfold Obligations.DisableZeroesShadow
  intro c s t h hctx hx hp
  have runs := (setter_performs (ok := upTo 1 0) h rfl (setIrqenSteps c 0)).symm.trans hx
  have command : ∀ m ∈ setIrqenSteps c 0 ++ [(Act.ret .zero).always], (!m.act.enables) = true := by
    cases c <;> decide
  have begins : DisableDue c { s with prog := setIrqenSteps c 0 ++ [(Act.ret .zero).always] } :=
    .inl ⟨rfl, trivial, command, fun m hm => handlerSteps_enable_none m (hctx.place.subset hm)⟩
  exact ((disableDue_kept c).drive begins runs).done hp

end Sys2Proof.Machine

/-!
PROOFS. The pretrigger commands: SET.PTOFS (O27), SET.PTEN without a transition (O28) and the arm sequence (O29). Each
part of the sequence leads to its own update of the state; the armed state is those updates, one after another.
-/

namespace Sys2Proof.Machine

/-! ## SET.PTOFS (R161) -/

theorem clampOffset_below {d : Word} (h : d.toNat < 25) : clampOffset d = 25 := if_pos h

theorem clampOffset_above {d : Word} (h : 25 ≤ d.toNat) : clampOffset d = d := if_neg (Nat.not_lt.mpr h)

theorem exec_setPtofs {d : Word} {s : State} (h : s.Ready) :
    exec (.setPtofs d) s = .next ({ s with ptofs := clampOffset d }.respond 0 0) :=
  setter_leads (ok := true) h rfl h.noCommand fun _ => Leads.single rfl

/-- Settles O27: no check, and the value stored is the clamped one. -/
theorem setPtofsClamps : Obligations.SetPtofsClamps := by
  unfold Obligations.SetPtofsClamps
  intro d s
  refine ⟨rfl, fun h hd => ?below, fun h hd => ?above⟩
  case below => rw [exec_setPtofs h, clampOffset_below hd]
  case above => rw [exec_setPtofs h, clampOffset_above hd]

/-! ## The request (R162) -/

/-- u1 of SET.PTEN: the request, and whether it made a false to true transition. -/
def State.request (s : State) (b : Bool) : State :=
  { s with pten := b, loc := { s.loc with arm := b && !s.pten } }

/-- The arm sequence stands under one `if`. -/
theorem armSteps_guard : ∀ m ∈ armSteps, m.guard = .arm := by decide

/-- Without a transition the arm sequence is passed over (R172). -/
theorem exec_setPten_unarmed {d : Word} {s : State} (h : s.Ready) (hd : d.toNat ≤ 1)
    (ht : (asBool d && !s.pten) = false) :
    exec (.setPten d) s = .next ({ s with pten := asBool d }.respond 0 0) :=
  setter_leads (t := s.request (asBool d)) h (upTo_iff.mpr hd) h.noCommand fun p =>
    Leads.cons (t := { s with prog := p }.request (asBool d)) rfl (Leads.skip (g := .arm) (by exact ht) armSteps_guard)

/-- Settles O28: a request withdrawn, or made again, makes no transition. -/
theorem setPtenWithoutTransition : Obligations.SetPtenWithoutTransition := by
  unfold Obligations.SetPtenWithoutTransition
  intro d s
  refine ⟨rfl, fun h hd => exec_invalid h (atMost_eq_false_iff.mpr hd),
    fun h => exec_setPten_unarmed h (by decide) rfl, fun h hp => ?again⟩
  case again =>
    have kept : { s with pten := asBool 1 } = s := by rw [show asBool 1 = s.pten from hp.symm]
    rw [exec_setPten_unarmed h (by decide) (by rw [hp]; rfl), kept]

/-! ## The parts of the arm sequence (R163 to R167) -/

/-- a8 of R163 on the record. -/
def referenceRec (r : ChanRec) : ChanRec := { r with mode := 10, stc := 2, clc := 1, ldc := 0, tst := 0 }

/-- b4 of R164 on the record. -/
def silencedRec (r : ChanRec) : ChanRec := { r with cmpirq := 3, ien := false, pss := 0 }

/-- b6 of R164 on the record. -/
def slaveRec (r : ChanRec) : ChanRec := { r with mode := 10, ldc := 1, clc := 0, stc := 0, tst := 0 }

theorem referenceRec_noImmediate (r : ChanRec) : noImmediate (referenceRec r) :=
  ⟨(by decide : (0 : BitVec 2) ≠ 2), (by decide : (1 : BitVec 2) ≠ 2), (by decide : (2 : BitVec 2) ≠ 1)⟩

theorem slaveRec_noImmediate (r : ChanRec) : noImmediate (slaveRec r) :=
  ⟨(by decide : (1 : BitVec 2) ≠ 2), (by decide : (0 : BitVec 2) ≠ 2), (by decide : (0 : BitVec 2) ≠ 1)⟩

/-- The comparator A of a channel set, record and registers. -/
def State.compared (s : State) (c : Chan) (v : Word) : State :=
  (s.modRec c fun r => { r with cmpA := v }).modHw c fun w => { w with cmpaLo := lo16 v, cmpaHi := hi16 v }

/-- The output configuration with the arm bits in it. -/
def State.outputEnabled (s : State) : State :=
  { s with ocfg := s.ocfg ||| s.par.armOutcfgOr, outcfg := s.ocfg ||| s.par.armOutcfgOr }

/-- Part 1 (R163). -/
def State.armRef (s : State) : State :=
  ((s.modHw .chA fun w => { w with preLo := 0, preHi := 0 }).compared .chA cmpNever).outputEnabled.setCctl .chA
    referenceRec

/-- Part 2 for one slave (R164). -/
def State.armSlave (s : State) (c : Chan) : State :=
  ((s.compared c 0).setIctl c silencedRec).setCctl c slaveRec

/-- Part 3 (R166). -/
def State.armOutput (s : State) : State :=
  { s with
    octl0 := s.par.armOutctl0, outctl0 := s.par.armOutctl0
    octl1 := s.par.armOutctl1, outctl1 := s.par.armOutctl1 }

/-- Part 4 (R167). -/
def State.armEnable (s : State) : State :=
  (s.setIctl .chA fun r => { r with ien := true }).setIctl .chA fun r => { r with xen := true }

/-- The parts in order, `ptarmed <- 1` after part 3 (R165). -/
def State.armSequence (s : State) : State :=
  { ((s.armRef.armSlave .chB).armSlave .chC).armOutput with ptarmed := true }.armEnable

/-- The command stands in its arm sequence: the transition was made, and no masked section is open. -/
structure State.Arming (s : State) : Prop where
  wf : s.par.Wf
  transition : s.loc.arm = true
  unmasked : s.imask = false

section
variable {s : State} {c : Chan}

theorem State.Arming.modRec (h : s.Arming) (c : Chan) (f : ChanRec → ChanRec) : (s.modRec c f).Arming :=
  ⟨h.wf, h.transition, h.unmasked⟩

theorem State.Arming.modHw (h : s.Arming) (c : Chan) (f : HwChan → HwChan) : (s.modHw c f).Arming :=
  ⟨h.wf, h.transition, h.unmasked⟩

theorem State.Arming.compared (h : s.Arming) (c : Chan) (v : Word) : (s.compared c v).Arming :=
  (h.modRec c _).modHw c _

theorem State.Arming.setCctl (h : s.Arming) (c : Chan) (f : ChanRec → ChanRec) : (s.setCctl c f).Arming :=
  (h.modRec c f).modHw c _

theorem State.Arming.setIctl (h : s.Arming) (c : Chan) (f : ChanRec → ChanRec) : (s.setIctl c f).Arming :=
  (h.modRec c f).modHw c _

theorem State.Arming.outputEnabled (h : s.Arming) : s.outputEnabled.Arming := ⟨h.wf, h.transition, h.unmasked⟩

theorem State.Arming.armRef (h : s.Arming) : s.armRef.Arming :=
  (((h.modHw .chA _).compared .chA _).outputEnabled).setCctl .chA _

theorem State.Arming.armSlave (h : s.Arming) (c : Chan) : (s.armSlave c).Arming :=
  ((h.compared c 0).setIctl c _).setCctl c _

theorem State.Arming.armOutput (h : s.Arming) : s.armOutput.Arming := ⟨h.wf, h.transition, h.unmasked⟩

/-- A micro-step of the sequence is not passed over. -/
theorem State.Arming.run {t : State} {a : Act} (h : s.Arming) (ha : a.run s = .cont t) :
    (a.under .arm).run s = .cont t := under_cont h.transition ha

theorem leads_compared (h : s.Arming) (c : Chan) (v : Word) :
    Leads ((Act.setCmpA c v).under .arm ::
      writePair (.cmpaLo c) (.cmpaHi c) (.const (lo16 v)) (.const (hi16 v)) .arm) s (s.compared c v) :=
  have stored := h.modRec c fun r => { r with cmpA := v }
  Leads.cons (h.run rfl) (leads_compA stored.wf c _ _ .arm fun _ => stored.transition)

theorem leads_outputEnabled (h : s.Arming) :
    Leads [Act.orOcfg.under .arm, (Act.write .outcfg .ocfg).under .arm] s s.outputEnabled :=
  Leads.cons (t := { s with ocfg := s.ocfg ||| s.par.armOutcfgOr }) (h.run rfl)
    (Leads.single (under_cont h.transition (run_write_outcfg h.wf)))

/-- A field of the record, then CNTCTL. -/
theorem leads_armCctl {a : Act} {f : ChanRec → ChanRec} (h : s.Arming) (ha : a.run s = .cont (s.modRec c f))
    (hf : ∀ r, noImmediate (f r)) :
    Leads [a.under .arm, (Act.write (.cntctl c) (.cctl c)).under .arm] s (s.setCctl c f) :=
  leads_setCctl h.wf (fun _ => h.transition) ha (hf _)

theorem leads_armRef (h : s.Arming) : Leads armRefSteps s s.armRef := by
  have zeroed : Leads (writePair (.preLo .chA) (.preHi .chA) (.const 0) (.const 0) .arm) s
      (s.modHw .chA fun w => { w with preLo := 0, preHi := 0 }) :=
    leads_preload h.wf _ _ _ _ (fun _ => h.transition) fun _ => rfl
  have preloaded := h.modHw .chA fun w => { w with preLo := 0, preHi := 0 }
  have compared := preloaded.compared .chA cmpNever
  exact zeroed.append ((leads_compared preloaded .chA cmpNever).append ((leads_outputEnabled compared).append
    (leads_armCctl compared.outputEnabled rfl referenceRec_noImmediate)))

/-- b4 and b5, in their masked section. -/
theorem leads_silenced (h : s.Arming) (c : Chan) :
    Leads [Act.maskOpen.under .arm, (Act.armMask c).under .arm, (Act.write (.intctl c) (.ictl c)).under .arm,
      Act.maskClose.under .arm] s (s.setIctl c silencedRec) := by
  have ha := h.transition
  have unmasked : { s with imask := false } = s := by rw [← h.unmasked]
  have written := leads_setIctl (s := { s with imask := true }) (a := .armMask c) (g := .arm) (f := silencedRec) h.wf
    (fun _ => ha) rfl
  have closed : Leads [Act.maskClose.under .arm] ({ s with imask := true }.setIctl c silencedRec)
      ({ s with imask := false }.setIctl c silencedRec) := Leads.single (under_cont ha rfl)
  rw [unmasked] at closed
  exact Leads.cons (under_cont ha rfl) (written.append closed)

theorem leads_armSlave (h : s.Arming) (c : Chan) : Leads (armSlaveSteps c) s (s.armSlave c) :=
  have compared := h.compared c 0
  (leads_compared h c 0).append ((leads_silenced compared c).append
    (leads_armCctl (compared.setIctl c silencedRec) rfl slaveRec_noImmediate))

theorem leads_armOutput (h : s.Arming) : Leads armOutputSteps s s.armOutput := by
  have ha := h.transition
  exact Leads.cons (t := { s with octl0 := s.par.armOutctl0 }) (under_cont ha rfl) (Leads.cons
    (under_cont ha (run_write_outctl0 h.wf)) (Leads.cons (under_cont ha rfl) (Leads.single
      (under_cont ha (run_write_outctl1 h.wf)))))

theorem leads_armEnable (h : s.Arming) : Leads armEnableSteps s s.armEnable :=
  have enabled := h.setIctl .chA fun r => { r with ien := true }
  (leads_ienOn h.wf .chA .arm fun _ => h.transition).append
    (leads_setIctl enabled.wf (fun _ => enabled.transition) rfl)

theorem leads_armSequence (h : s.Arming) : Leads armSteps s s.armSequence :=
  have reference := h.armRef
  have slaveB := reference.armSlave .chB
  have slaveC := slaveB.armSlave .chC
  have output := slaveC.armOutput
  (leads_armRef h).append ((leads_armSlave reference .chB).append ((leads_armSlave slaveB .chC).append
    ((leads_armOutput slaveC).append (Leads.cons (output.run rfl)
      (leads_armEnable ⟨output.wf, output.transition, output.unmasked⟩)))))

/-- The request and the parts together leave the armed state, in the middle of the command. -/
theorem armSequence_request (s : State) :
    (s.request true).armSequence = { s.armed with loc := (s.request true).loc } := by
  simp [State.armSequence, State.armRef, State.armSlave, State.armOutput, State.armEnable, State.compared,
    State.outputEnabled, State.request, State.setCctl, State.setIctl, State.modRec, State.modHw, Quad.get, Quad.set,
    State.armed, referenceRec, silencedRec, slaveRec, armedHw, armedRefRec, armedSlaveRec, cctlWord,
    ictlWord, cmpNever]

end

/-- Settles O29: the transition opens the `if` under which the sequence stands, and nothing in it closes it again. -/
theorem setPtenArms : Obligations.SetPtenArms := by
  unfold Obligations.SetPtenArms
  refine fun s => ⟨fun h hp => ?armed, fun h => setter_performs h rfl _⟩
  have transition : (true && !s.pten) = true := by rw [hp]; rfl
  have arming (p : List Micro) : ({ s with prog := p }.request true).Arming := ⟨h.wf, transition, h.unmasked⟩
  have runs (p : List Micro) : Leads ((Act.setPten true).always :: armSteps) { s with prog := p }
      { { s with prog := p }.armed with loc := (s.request true).loc } :=
    Leads.cons (t := { s with prog := p }.request true) rfl
      ((leads_armSequence (arming p)).to (armSequence_request { s with prog := p }))
  exact setter_leads (t := { s.armed with loc := (s.request true).loc }) h rfl h.noCommand runs

end Sys2Proof.Machine

/-!
PROOFS. The bitmask of the handler. After h2 it is the flags of the four channels at their places (`packFlags`), and
every pass of the handler keeps that form: h3 masks a channel out by making its flags 0, h6 finds the bitmask zero
exactly if all flags are.
-/

namespace Sys2Proof.Machine

section
variable {l : PendLayout} {f g : Chan → BitVec 5} {c d : Chan}

/-- The flags of the four channels at their places in the 32-bit composition (R28, R233). -/
def packFlags (l : PendLayout) (f : Chan → BitVec 5) : Word :=
  compose (placeFlags l .chA (f .chA) ||| placeFlags l .chB (f .chB))
    (placeFlags l .chC (f .chC) ||| placeFlags l .chD (f .chD))

theorem samePair_ab : samePair .chA .chB := .inl ⟨rfl, rfl⟩

theorem samePair_cd : samePair .chC .chD := .inr (.inr (.inl ⟨rfl, rfl⟩))

theorem takeFlags_pair_left (h : l.Wf) (hp : samePair c d) (v w : BitVec 5) :
    takeFlags l c (placeFlags l c v ||| placeFlags l d w) = v := by
  rw [takeFlags_or, takeFlags_placeFlags_self h, takeFlags_placeFlags_other (PendLayout_disjoint h hp)]
  exact BitVec.or_zero

theorem takeFlags_pair_right (h : l.Wf) (hp : samePair c d) (v w : BitVec 5) :
    takeFlags l d (placeFlags l c v ||| placeFlags l d w) = w := by
  rw [BitVec.or_comm]
  exact takeFlags_pair_left h (samePair_symm hp) w v

/-- The bitmask holds, for each channel, its flags. -/
theorem flagsOf_packFlags (h : l.Wf) (f : Chan → BitVec 5) (c : Chan) : flagsOf l c (packFlags l f) = f c := by
  rw [flagsOf_eq h, packFlags, halfOf_compose]
  cases c with
  | chA => exact takeFlags_pair_left h samePair_ab _ _
  | chB => exact takeFlags_pair_right h samePair_ab _ _
  | chC => exact takeFlags_pair_left h samePair_cd _ _
  | chD => exact takeFlags_pair_right h samePair_cd _ _

@[simp] theorem placeFlags_zero (l : PendLayout) (c : Chan) : placeFlags l c 0#5 = 0#16 := by
  apply BitVec.eq_of_getLsbD_eq
  intro i hi
  simp [getLsbD_placeFlags]

/-- The bitmask is zero exactly if no channel has a flag in it. -/
theorem packFlags_eq_zero (h : l.Wf) : packFlags l f = 0 ↔ ∀ c, f c = 0 := by
  constructor
  · intro zero c
    rw [← flagsOf_packFlags h f c, zero]
    simp [flagsOf]
  · intro none
    simp [packFlags, none, compose]

/-- Two channels of one register: clearing flags of each in the word of the register. -/
theorem placeFlags_and_not (h : l.Wf) (hp : samePair c d) (v w x y : BitVec 5) :
    (placeFlags l c v ||| placeFlags l d w) &&& ~~~(placeFlags l c x ||| placeFlags l d y) =
      placeFlags l c (v &&& ~~~x) ||| placeFlags l d (w &&& ~~~y) := by
  have apart : l.sh.get c + 5 ≤ l.sh.get d ∨ l.sh.get d + 5 ≤ l.sh.get c := PendLayout_disjoint h hp
  apply BitVec.eq_of_getLsbD_eq
  intro i hi
  simp only [BitVec.getLsbD_and, BitVec.getLsbD_or, BitVec.getLsbD_not, getLsbD_placeFlags, hi, decide_true,
    Bool.true_and]
  by_cases inC : l.sh.get c ≤ i ∧ i < l.sh.get c + 5
  · have outD : ¬ (l.sh.get d ≤ i ∧ i < l.sh.get d + 5) := by omega
    have bit : i - l.sh.get c < 5 := by omega
    grind
  · grind

theorem not_compose (a b : Reg16) : ~~~(compose a b) = compose (~~~a) (~~~b) := by
  apply BitVec.eq_of_getLsbD_eq
  intro i hi
  rw [BitVec.getLsbD_not, getLsbD_compose, getLsbD_compose]
  by_cases low : i < 16
  · simp [low, hi]
  · simp [low, hi, show i - 16 < 16 by omega]

/-- Clearing flags in the bitmask clears them channel by channel. -/
theorem packFlags_and_not (h : l.Wf) (f g : Chan → BitVec 5) :
    packFlags l f &&& ~~~(packFlags l g) = packFlags l fun c => f c &&& ~~~(g c) := by
  rw [packFlags, packFlags, not_compose, compose_and, placeFlags_and_not h samePair_ab,
    placeFlags_and_not h samePair_cd]
  rfl

/-- Every flag of a channel, at its place in the register. -/
theorem placeFlags_ones (l : PendLayout) (c : Chan) : placeFlags l c 0x1F#5 = 0x1F#16 <<< l.sh.get c :=
  fieldPut_zeroExtend (f := l.field c) _ (Nat.le_refl 5)

theorem ones_shift_low : ∀ n < 12, 0x1F#32 <<< n = compose (0x1F#16 <<< n) 0#16 := by decide

theorem ones_shift_high : ∀ n < 12, 0x1F#32 <<< (16 + n) = compose 0#16 (0x1F#16 <<< n) := by decide

/-- `0x1F << pos(c)` (R234) is every flag of the channel, and no other. -/
theorem chanMask_eq (h : l.Wf) (c : Chan) : chanMask l c = packFlags l fun d => if d = c then 0x1F else 0 := by
  have fits : l.sh.get c < 12 := by have := PendLayout_fits h c; omega
  cases c with
  | chA | chB => simp [chanMask, pos, packFlags, placeFlags_ones, ones_shift_low _ fits]
  | chC | chD => simp [chanMask, pos, packFlags, placeFlags_ones, ones_shift_high _ fits]

/-- Masking a channel out of the bitmask makes its flags 0 (R234). -/
theorem packFlags_and_not_chanMask (h : l.Wf) (f : Chan → BitVec 5) (c : Chan) :
    packFlags l f &&& ~~~(chanMask l c) = packFlags l (Function.update f c 0) := by
  rw [chanMask_eq h, packFlags_and_not h]
  congr 1
  funext d
  have masked : ∀ v : BitVec 5, v &&& ~~~0x1F = 0 := by decide
  by_cases same : d = c
  · subst same
    rw [if_pos rfl, masked, Function.update_self]
  · rw [if_neg same, Function.update_of_ne same, BitVec.ofNat_eq_ofNat, BitVec.not_zero, BitVec.and_allOnes]

end

end Sys2Proof.Machine

/-!
PROOFS. A handler invocation in a quiet environment, part by part: entry, h1 to h5 (`leads_folding`), the per-edge
update with its two branches (`leads_recompute`, `leads_teardown`), h8 to h11 (`runSteps_finish`). From them the
qualifying invocations while the pretrigger is armed (O51, O52).
-/

namespace Sys2Proof.Machine

/-- `s` while a handler invocation with these locals runs. -/
def State.handling (s : State) (l : HLocals) : State := { s with inh := true, hprog := handlerSteps, hloc := l }

/-! ## h1 and h2 (R233) -/

section
variable {s : State}

theorem run_hPend0 (h : s.par.Wf) :
    Act.hPend0.run s =
      .cont { s with draws := s.draws + 1, hloc := { s.hloc with p0 := (readPend .chA .chB s).1 } } := by
  simp only [Act.run, memRead_offset h]
  rfl

theorem run_hPend1 (h : s.par.Wf) :
    Act.hPend1.run s =
      .cont { s with
        draws := s.draws + 1
        hloc := { s.hloc with
          p1 := (readPend .chC .chD s).1
          m := compose s.hloc.p0 (readPend .chC .chD s).1 &&& pendMask32 s.par.pend } } := by
  simp only [Act.run, memRead_offset h]
  rfl

theorem pend_wf (h : s.par.Wf) : s.par.pend.Wf :=
  have ⟨_, _, _, pend⟩ := h
  pend

/-- The handler's locals after h2: the bitmask is the pending flags, whatever the reserved bits read as. -/
def State.polledLocals (s : State) : HLocals :=
  { s.hloc with
    p0 := (readPend .chA .chB s).1
    p1 := (readPend .chC .chD { s with draws := s.draws + 1 }).1
    m := packFlags s.par.pend fun c => (s.hw.get c).pend }

theorem leads_polled (h : s.par.Wf) :
    Leads [Act.hPend0.always, Act.hPend1.always] s { s with draws := s.draws + 2, hloc := s.polledLocals } := by
  refine Leads.cons (run_hPend0 h) (Leads.single ((run_hPend1 (by exact h)).trans ?_))
  have mask := handler_mask_eq s.par.pend (s.hw.get .chA).pend (s.hw.get .chB).pend (s.hw.get .chC).pend
    (s.hw.get .chD).pend (Config.pendReserved s.draws) (Config.pendReserved (s.draws + 1))
  simp only [State.polledLocals, packFlags, readPend, mask]

/-! ## h3 (R234) -/

/-- The flags of `f` that are of enabled channels. -/
def State.enabledFlags (s : State) (f : Chan → BitVec 5) (c : Chan) : BitVec 5 := if (s.ch.get c).ien then f c else 0

/-- h3 on the record of a channel whose flags are `b`. -/
def foldRec (b : BitVec 5) (r : ChanRec) : ChanRec := { r with pss := if r.ien then r.pss ||| b else 0 }

/-- h3 for one channel: its shadow, and its flags in the bitmask if it is disabled. -/
theorem foldChan_packed {f : Chan → BitVec 5} (h : s.par.Wf) (hm : s.hloc.m = packFlags s.par.pend f) (c : Chan) :
    foldChan s c =
      { s.modRec c (foldRec (f c)) with
        hloc := { s.hloc with m := packFlags s.par.pend (Function.update f c (s.enabledFlags f c)) } } := by
  obtain ⟨enabled, e⟩ | ⟨disabled, e⟩ := foldChan_cases s c
  · have kept : Function.update f c (s.enabledFlags f c) = f := by
      rw [State.enabledFlags, if_pos enabled, Function.update_eq_self]
    rw [e, hm, flagsOf_packFlags (pend_wf h), kept, ← hm]
    simp [State.modRec, foldRec, enabled]
  · rw [e, hm, packFlags_and_not_chanMask (pend_wf h), State.enabledFlags, disabled]
    simp [State.modRec, foldRec, disabled]

/-- h3: every shadow, and the bitmask cut to the flags of the enabled channels. -/
theorem foldAll_packed {f : Chan → BitVec 5} (h : s.par.Wf) (hm : s.hloc.m = packFlags s.par.pend f) :
    foldAll s =
      { s with
        ch := quadOf fun c => foldRec (f c) (s.ch.get c)
        hloc := { s.hloc with m := packFlags s.par.pend (s.enabledFlags f) } } := by
  simp only [foldAll, Chan.all, List.foldl_cons, List.foldl_nil]
  rw [foldChan_packed (c := .chA) h hm, foldChan_packed (c := .chB) (by exact h) rfl,
    foldChan_packed (c := .chC) (by exact h) rfl, foldChan_packed (c := .chD) (by exact h) rfl]
  simp only [State.modRec, Quad.get, Quad.set, quadOf, State.enabledFlags]
  congr 3
  funext c
  cases c <;> rfl

/-! ## h4 to h6 (R235, R236) -/

/-- h4 and h5 clear in the hardware of each channel the flags that are in the bitmask. -/
theorem leads_written (h : s.par.Wf) :
    Leads [(Act.write .pend0 .maskLo).always, (Act.write .pend1 .maskHi).always] s
      { s with hw := quadOf fun c =>
        { s.hw.get c with pend := (s.hw.get c).pend &&& ~~~(flagsOf s.par.pend c s.hloc.m) } } := by
  refine Leads.cons (run_write_ok h rfl) (Leads.single ((run_write_ok (by exact h) rfl).trans ?_))
  simp only [flagsOf_eq (pend_wf h)]
  rfl

/-- The handler's locals after h5. -/
def State.foldedLocals (s : State) : HLocals :=
  { s.polledLocals with m := packFlags s.par.pend (fired s) }

/-- h1 to h5 lead to the folded state. -/
theorem leads_folding (h : s.par.Wf) :
    Leads [Act.hPend0.always, Act.hPend1.always, Act.hFold.always, (Act.write .pend0 .maskLo).always,
      (Act.write .pend1 .maskHi).always] s { s.folded with hloc := s.foldedLocals } := by
  have folds : Act.hFold.always.run { s with draws := s.draws + 2, hloc := s.polledLocals } =
      .cont { s with draws := s.draws + 2, ch := s.folded.ch, hloc := s.foldedLocals } :=
    congrArg Flow.cont (foldAll_packed (s := { s with draws := s.draws + 2, hloc := s.polledLocals })
      (f := fun c => (s.hw.get c).pend) h rfl)
  have written := leads_written (s := { s with draws := s.draws + 2, ch := s.folded.ch, hloc := s.foldedLocals }) h
  have cleared : (quadOf fun c =>
      { s.hw.get c with pend := (s.hw.get c).pend &&& ~~~(flagsOf s.par.pend c s.foldedLocals.m) }) = s.folded.hw := by
    simp only [State.foldedLocals, flagsOf_packFlags (pend_wf h), State.folded]
  exact (leads_polled h).append (Leads.cons folds (written.to (by rw [cleared]; rfl)))

/-- h6 goes on exactly in a qualifying interrupt. -/
theorem qualifies_iff : qualifies s = true ↔ ∃ c, fired s c ≠ 0 := by
  simp [qualifies, Chan.mem_all]

theorem run_hOwn (h : s.hloc.m ≠ 0) : Act.hOwn.run s = .cont s := if_neg h

theorem foldedLocals_ne_zero (h : s.par.Wf) (hq : qualifies s = true) : s.foldedLocals.m ≠ 0 := by
  obtain ⟨c, hc⟩ := qualifies_iff.mp hq
  exact fun zero => hc ((packFlags_eq_zero (pend_wf h)).mp zero c)

end

/-! ## The per-edge update (R168 to R170) -/

/-- The locals after p3: the latched count of channel A, and the branch that the request chooses. -/
def State.decidedLocals (s : State) : HLocals :=
  { s.hloc with
    edge := true
    l := lo16 (s.hw.get .chA).lat
    h := hi16 (s.hw.get .chA).lat
    branch := if s.pten then .recompute else .teardown }

/-- The state after p3. -/
def State.decided (s : State) : State := { s with hloc := s.decidedLocals }

/-- r0: the two preloads. -/
def State.computedLocals (s : State) : HLocals :=
  { s.hloc with
    s1 := slavePreload1 (compose s.hloc.l s.hloc.h) s.ptofs
    s2 := slavePreload2 (compose s.hloc.l s.hloc.h) s.ptofs }

/-- The invocation is in a branch of the per-edge update. -/
structure State.InBranch (s : State) (g : Guard) : Prop where
  wf : s.par.Wf
  chosen : ∀ p q r, g.holds { s with ch := p, hw := q, ptarmed := r } = true

section
variable {s : State} {g : Guard}

theorem run_hCntLo (h : s.par.Wf) :
    Act.hCntLo.run s = .cont { s with hloc := { s.hloc with l := lo16 (s.hw.get .chA).lat } } := by
  simp only [Act.run, memRead_offset h]
  rfl

theorem run_hCntHi (h : s.par.Wf) :
    Act.hCntHi.run s = .cont { s with hloc := { s.hloc with h := hi16 (s.hw.get .chA).lat } } := by
  simp only [Act.run, memRead_offset h]
  rfl

/-- p0 to p3, while the pretrigger is armed or torn down when idle (R168, R171). -/
theorem leads_decided (h : s.par.Wf) (he : s.ptarmed = true ∨ s.par.ptIdleTeardown = true) :
    Leads [Act.hEdge.always, Act.hCntLo.under .edge, Act.hCntHi.under .edge, Act.hDecide.under .edge] s
      s.decided := by
  have edge : Act.hEdge.always.run s = .cont { s with hloc := { s.hloc with edge := true } } := by
    rw [always_run, Act.run, Bool.or_eq_true_iff.mpr he]
  exact Leads.cons edge (Leads.cons (under_cont rfl (run_hCntLo (by exact h)))
    (Leads.cons (under_cont rfl (run_hCntHi (by exact h))) (Leads.single (under_cont rfl rfl))))

theorem State.InBranch.modHw (h : s.InBranch g) (c : Chan) (f : HwChan → HwChan) : (s.modHw c f).InBranch g :=
  ⟨h.wf, fun p _ r => h.chosen p _ r⟩

/-- A source that gives one value whatever the hardware is. -/
def Src.Yields (src : Src) (s : State) (v : Reg16) : Prop := ∀ q, src.eval { s with hw := q } = v

/-- Both pairs of slave preload registers, low then high. -/
theorem leads_slavePreloads {xl xh yl yh : Src} {x y : Word} (h : s.InBranch g) (hxl : xl.Yields s (lo16 x))
    (hxh : xh.Yields s (hi16 x)) (hyl : yl.Yields s (lo16 y)) (hyh : yh.Yields s (hi16 y)) :
    Leads (writePair (.preLo .chB) (.preHi .chB) xl xh g ++ writePair (.preLo .chC) (.preHi .chC) yl yh g) s
      (s.slavePreloads x y) := by
  have first := leads_preload h.wf .chB xl xh g (fun q => h.chosen s.ch q s.ptarmed)
    fun q => (hxh q).trans (hxh s.hw).symm
  rw [hxl s.hw, hxh s.hw] at first
  have between := h.modHw .chB fun w => { w with preLo := lo16 x, preHi := hi16 x }
  have second := leads_preload between.wf .chC yl yh g (fun q => h.chosen s.ch q s.ptarmed)
    fun q => (hyh q).trans (hyh _).symm
  rw [show yl.eval (s.modHw .chB _) = lo16 y from hyl _, show yh.eval (s.modHw .chB _) = hi16 y from hyh _] at second
  exact first.append second

/-- Recompute (R169). -/
theorem leads_recompute (h : s.InBranch .recompute) :
    Leads recomputeSteps s
      ({ s with hloc := s.computedLocals }.slavePreloads s.computedLocals.s1 s.computedLocals.s2) := by
  have computed : { s with hloc := s.computedLocals }.InBranch .recompute := ⟨h.wf, h.chosen⟩
  exact Leads.cons (under_cont (h.chosen s.ch s.hw s.ptarmed) rfl)
    (leads_slavePreloads computed (fun _ => rfl) (fun _ => rfl) (fun _ => rfl) fun _ => rfl)

theorem setIctl_setIctl (s : State) (c : Chan) (f g : ChanRec → ChanRec) :
    (s.setIctl c f).setIctl c g = s.setIctl c fun r => g (f r) := by
  simp [State.setIctl, State.modRec, State.modHw]

theorem leads_dummyPreloads (h : s.InBranch .teardown) (v : Word) :
    Leads (writePair (.preLo .chB) (.preHi .chB) (.const (lo16 v)) (.const (hi16 v)) .teardown ++
      writePair (.preLo .chC) (.preHi .chC) (.const (lo16 v)) (.const (hi16 v)) .teardown) s (s.slavePreloads v v) :=
  leads_slavePreloads h (fun _ => rfl) (fun _ => rfl) (fun _ => rfl) fun _ => rfl

/-- t5 to t8: channel A's enables and shadow, and `ptarmed`. -/
theorem leads_released (h : s.InBranch .teardown) :
    Leads ([(Act.setXen .chA false).under .teardown, (Act.write (.intctl .chA) (.ictl .chA)).under .teardown] ++
        (ienOffSteps .chA .teardown ++ [(Act.setPtarmed false).under .teardown])) s
      { s.setIctl .chA (fun r => { r with xen := false, ien := false, pss := 0 }) with ptarmed := false } := by
  have edgeOff := leads_setIctl (a := .setXen .chA false) (f := fun r => { r with xen := false }) h.wf
    (fun q => h.chosen q s.hw s.ptarmed) rfl
  have disabled := leads_ienOff (s := s.setIctl .chA fun r => { r with xen := false }) h.wf .chA .teardown
    fun q => h.chosen q _ s.ptarmed
  rw [setIctl_setIctl] at disabled
  exact edgeOff.append (disabled.append (Leads.single (under_cont (h.chosen _ _ s.ptarmed) rfl)))

/-- Teardown (R170). -/
theorem leads_teardown (h : s.InBranch .teardown) : Leads teardownSteps s s.tornDown := by
  have preloads := leads_dummyPreloads h ptDummy
  have released := leads_released ((h.modHw .chB fun w => { w with preLo := lo16 ptDummy, preHi := hi16 ptDummy }).modHw
    .chC fun w => { w with preLo := lo16 ptDummy, preHi := hi16 ptDummy })
  exact preloads.append released

theorem recomputeSteps_guard : ∀ m ∈ recomputeSteps, m.guard = .recompute := by decide

theorem teardownSteps_guard : ∀ m ∈ teardownSteps, m.guard = .teardown := by decide

/-- With the request on, the per-edge update is Recompute, from the count latched before it (R168, R169). -/
theorem leads_perEdge_recompute (h : s.par.Wf) (ha : s.ptarmed = true ∨ s.par.ptIdleTeardown = true)
    (hp : s.pten = true) : ∃ l, l.m = s.hloc.m ∧ Leads perEdgeSteps s { s.recomputed with hloc := l } := by
  have chosen : s.decidedLocals.branch = .recompute := if_pos hp
  have within : s.decided.InBranch .recompute := ⟨h, fun _ _ _ => beq_iff_eq.mpr chosen⟩
  have first : s.decided.computedLocals.s1 = (s.hw.get .chA).lat - s.ptofs :=
    congrArg (· - s.ptofs) (compose_halves (s.hw.get .chA).lat)
  have second : s.decided.computedLocals.s2 = (s.hw.get .chA).lat / 2 - s.ptofs :=
    congrArg (· / 2 - s.ptofs) (compose_halves (s.hw.get .chA).lat)
  have recompute := leads_recompute within
  rw [first, second] at recompute
  have skipped : Leads teardownSteps { s.recomputed with hloc := s.decided.computedLocals }
      { s.recomputed with hloc := s.decided.computedLocals } :=
    Leads.skip (g := .teardown) (congrArg (· == EdgeBranch.teardown) chosen) teardownSteps_guard
  exact ⟨s.decided.computedLocals, rfl, (leads_decided h ha).append (recompute.append skipped)⟩

/-- With the request withdrawn, the per-edge update is Teardown (R168, R170). -/
theorem leads_perEdge_teardown (h : s.par.Wf) (ha : s.ptarmed = true ∨ s.par.ptIdleTeardown = true)
    (hp : s.pten = false) : ∃ l, l.m = s.hloc.m ∧ Leads perEdgeSteps s { s.tornDown with hloc := l } := by
  have chosen : s.decidedLocals.branch = .teardown := if_neg (Bool.eq_false_iff.mp hp)
  have within : s.decided.InBranch .teardown := ⟨h, fun _ _ _ => beq_iff_eq.mpr chosen⟩
  have skipped : Leads recomputeSteps s.decided s.decided :=
    Leads.skip (g := .recompute) (congrArg (· == EdgeBranch.recompute) chosen) recomputeSteps_guard
  exact ⟨s.decidedLocals, rfl, (leads_decided h ha).append (skipped.append (leads_teardown within))⟩

end

/-! ## h8 to h11 (R237 to R241) -/

/-- A state that the rest of an invocation which started in `s` reaches: the command side and what h9 and h10 read are
as they were. -/
structure State.Continues (t s : State) : Prop where
  par : t.par = s.par
  evs : t.evs = s.evs
  rdmode : ∀ c, (t.ch.get c).rdmode = (s.ch.get c).rdmode
  sig : ∀ c, (t.ch.get c).sig = (s.ch.get c).sig
  prog : t.prog = s.prog
  hprog : t.hprog = s.hprog
  inh : t.inh = s.inh

section
variable {s t : State}

theorem State.Continues.modHw (h : t.Continues s) (c : Chan) (f : HwChan → HwChan) : (t.modHw c f).Continues s :=
  ⟨h.par, h.evs, h.rdmode, h.sig, h.prog, h.hprog, h.inh⟩

theorem State.Continues.modRec (h : t.Continues s) (c : Chan) {f : ChanRec → ChanRec}
    (hr : ∀ r, (f r).rdmode = r.rdmode) (hs : ∀ r, (f r).sig = r.sig) : (t.modRec c f).Continues s := by
  have field {α : Type} (p : ChanRec → α) (hp : ∀ r, p (f r) = p r) (d : Chan) :
      p ((t.modRec c f).ch.get d) = p (t.ch.get d) := by
    rw [modRec_get]
    split
    · exact hp _
    · rfl
  exact ⟨h.par, h.evs, fun d => (field _ hr d).trans (h.rdmode d), fun d => (field _ hs d).trans (h.sig d), h.prog,
    h.hprog, h.inh⟩

theorem State.Continues.setIctl (h : t.Continues s) (c : Chan) {f : ChanRec → ChanRec}
    (hr : ∀ r, (f r).rdmode = r.rdmode) (hs : ∀ r, (f r).sig = r.sig) : (t.setIctl c f).Continues s :=
  (h.modRec c hr hs).modHw c _

theorem State.Continues.slavePreloads (h : t.Continues s) (x y : Word) : (t.slavePreloads x y).Continues s :=
  (h.modHw .chB _).modHw .chC _

theorem State.Continues.recomputed (h : t.Continues s) : t.recomputed.Continues s := h.slavePreloads _ _

theorem State.Continues.disarmed (h : t.Continues s) : { t with ptarmed := false }.Continues s :=
  ⟨h.par, h.evs, h.rdmode, h.sig, h.prog, h.hprog, h.inh⟩

theorem State.Continues.tornDown (h : t.Continues s) : t.tornDown.Continues s :=
  ((h.slavePreloads ptDummy ptDummy).setIctl .chA (f := fun r => { r with xen := false, ien := false, pss := 0 })
    (fun _ => rfl) fun _ => rfl).disarmed

theorem folded_continues (s : State) : s.folded.Continues s := by
  refine ⟨rfl, rfl, fun c => ?_, fun c => ?_, rfl, rfl, rfl⟩ <;> cases c <;> rfl

/-- h9 for one channel, whether its semaphore is due or not (R238). -/
theorem signalChan_eq (t : State) (c : Chan) (b : Bool)
    (hb : ((flagsOf t.par.pend c t.hloc.m).getLsbD 0 && (t.ch.get c).rdmode == 1) = b) :
    signalChan t c =
      { t.modRec c (fun r => { r with rsem := r.rsem || b }) with
        evs := t.evs ++ if b then [.semSignal c] else [] } := by
  rw [signalChan, show Kind.ready.index = 0 from rfl, hb]
  cases b with
  | true => simp
  | false =>
    have kept : t.modRec c (fun r => r) = t := by simp [State.modRec]
    simp only [Bool.false_eq_true, if_false, Bool.or_false, List.append_nil]
    exact kept.symm

theorem semEvents_eq (s : State) :
    semEvents s = Chan.all.flatMap fun c => if semaphoreDue s c then [.semSignal c] else [] := by
  rw [semEvents]
  induction Chan.all with
  | nil => rfl
  | cons c cs ih => cases due : semaphoreDue s c <;> simp [due, ih]

/-- h9: the semaphores that are due, and their events. -/
theorem signalAll_eq (hf : ∀ c, flagsOf t.par.pend c t.hloc.m = fired s c)
    (hr : ∀ c, (t.ch.get c).rdmode = (s.ch.get c).rdmode) :
    signalAll t =
      { t with
        ch := quadOf fun c => { t.ch.get c with rsem := (t.ch.get c).rsem || semaphoreDue s c }
        evs := t.evs ++ semEvents s } := by
  have due (c : Chan) : ((flagsOf t.par.pend c t.hloc.m).getLsbD 0 && (t.ch.get c).rdmode == 1) = semaphoreDue s c := by
    rw [hf, hr, semaphoreDue]
  simp only [signalAll, Chan.all, List.foldl_cons, List.foldl_nil]
  rw [signalChan_eq t .chA _ (due .chA), signalChan_eq _ .chB (semaphoreDue s .chB) (by exact due .chB),
    signalChan_eq _ .chC (semaphoreDue s .chC) (by exact due .chC),
    signalChan_eq _ .chD (semaphoreDue s .chD) (by exact due .chD), semEvents_eq]
  simp [State.modRec, Quad.get, Quad.set, quadOf, Chan.all]

/-- A pass that only appends events appends them in order. -/
theorem foldl_appends {α : Type} {g : State → α → State} {e : α → List OutEvent}
    (hg : ∀ es x, g { t with evs := es } x = { t with evs := es ++ e x }) (xs : List α) (es : List OutEvent) :
    xs.foldl g { t with evs := es } = { t with evs := es ++ xs.flatMap e } := by
  induction xs generalizing es with
  | nil => simp
  | cons x xs ih => rw [List.foldl_cons, hg, ih, List.flatMap_cons, List.append_assoc]

/-- h10 (R240). -/
theorem notifyAll_eq (hp : t.par = s.par) (hf : ∀ c, flagsOf t.par.pend c t.hloc.m = fired s c)
    (hs : ∀ c, (t.ch.get c).sig = (s.ch.get c).sig) : notifyAll t = { t with evs := t.evs ++ notifyEvents s } := by
  have slot (c : Chan) (es : List OutEvent) (k : Kind) :
      notifySlot c { t with evs := es } k = { t with evs := es ++ (notification s c k).toList } := by
    simp only [notifySlot, notification, hf, hs]
    split
    · cases (s.ch.get c).sig.get k <;> simp
    · simp
  have chan (es : List OutEvent) (c : Chan) :
      notifyChan { t with evs := es } c = { t with evs := es ++ Kind.all.filterMap (notification s c) } := by
    rw [List.filterMap_eq_flatMap_toList]
    exact foldl_appends (slot c) Kind.all es
  rw [notifyAll, notifyEvents, ← hp]
  split
  · exact foldl_appends chan Chan.all t.evs
  · simp

/-- h8 to h11. -/
def finishSteps : List Micro := [Act.hCount.always, Act.hSem.always, Act.hNotify.always, Act.hEnd.always]

/-- h8 to h11: the count, the semaphores, the notifications and the answer MINE. -/
theorem runSteps_finish {l : HLocals} (hs : s.Ready) (h : t.Continues s)
    (hf : ∀ c, flagsOf s.par.pend c l.m = fired s c) :
    runSteps .irq finishSteps (t.handling l) = .next (t.handledFrom s) := by
  have flags (c : Chan) : flagsOf t.par.pend c l.m = fired s c := by rw [h.par, hf]
  have signals := signalAll_eq (t := { t.handling l with irqcnt := t.irqcnt + 1 }) flags h.rdmode
  have notifies := notifyAll_eq (s := s) (t := signalAll { t.handling l with irqcnt := t.irqcnt + 1 })
    (by rw [signals]; exact h.par) (by rw [signals]; exact flags)
    fun c => by rw [signals, ← h.sig c]; cases c <;> rfl
  have outside : t.inh = false := h.inh.trans hs.outside
  have ended : t.hprog = [] := h.hprog.trans hs.noHandler
  rw [finishSteps, runSteps_cont (t := { t.handling l with irqcnt := t.irqcnt + 1 }) rfl, runSteps_cont rfl,
    runSteps_cont rfl, runSteps_ended rfl, notifies, signals]
  simp only [State.handling, State.leaveHandler, State.setPosition, State.handledFrom, h.evs, outside, ended]

end

/-! ## An invocation from its entry to its end (R232, R246, R247) -/

section
variable {s t : State}

/-- In a ready block an invocation asked for runs undisturbed, and with no command in progress the step ends with it. -/
theorem step_irq (h : s.Ready) (ht : t.prog = [])
    (hr : runSteps .irq handlerSteps (s.handling .clear) = .next t) : step { s with script := [.irq] } = .next t := by
  have idle : { s with script := [.irq] }.idle = true := by simp [State.idle, h.noCommand, h.noHandler]
  have entered : irqStep { s with script := [.irq] } =
      { s with script := [.irq], inh := true, hprog := handlerSteps, hloc := .clear } := by
    simp [irqStep, h.unmasked, h.outside, h.live, State.enterHandler]
  have placed : { s.handling .clear with script := [] } = s.handling .clear := by
    rw [State.handling, ← h.quiet]
  calc step { s with script := [.irq] }
    _ = drive [] (irqStep { s with script := [.irq] }) := if_pos idle
    _ = runQuiet (s.handling .clear) := by rw [entered, drive]; exact congrArg runQuiet placed
    _ = .next t := by
      rw [runQuiet, show (s.handling .clear).hprog = handlerSteps from rfl, hr]
      simp only [ht, runSteps_nil]
      rw [setPosition_host_self ht]

/-- A qualifying invocation whose per-edge update leads to `t` answers what h8 to h11 make of `t`. -/
theorem step_irq_qualifying {l : HLocals} (h : s.Ready) (hq : qualifies s = true) (hc : t.Continues s)
    (hl : l.m = s.foldedLocals.m)
    (he : Leads perEdgeSteps (s.folded.handling (s.handling .clear).foldedLocals) (t.handling l)) :
    step { s with script := [.irq] } = .next (t.handledFrom s) := by
  have flags (c : Chan) : flagsOf s.par.pend c l.m = fired s c := by
    rw [hl]
    exact flagsOf_packFlags (pend_wf h.wf) _ c
  have own : Act.hOwn.always.run (s.folded.handling (s.handling .clear).foldedLocals) =
      .cont (s.folded.handling (s.handling .clear).foldedLocals) := run_hOwn (foldedLocals_ne_zero h.wf hq)
  have folding := leads_folding (s := s.handling .clear) h.wf
  refine step_irq h (hc.prog.trans h.noCommand) ?_
  calc runSteps .irq handlerSteps (s.handling .clear)
    _ = runSteps .irq finishSteps (t.handling l) := (folding.append (Leads.cons own he)) .irq _
    _ = .next (t.handledFrom s) := runSteps_finish h hc flags

end

/-! ## The qualifying invocations of the armed pretrigger -/

/-- Settles O51: p3 chooses Recompute, and Teardown is passed over. -/
theorem invocationRecomputes : Obligations.InvocationRecomputes := by
  unfold Obligations.InvocationRecomputes
  intro s h hq ha hp
  obtain ⟨l, hl, he⟩ := leads_perEdge_recompute (s := s.folded.handling (s.handling .clear).foldedLocals) h.wf ha hp
  exact step_irq_qualifying h hq (folded_continues s).recomputed hl he

/-- Settles O52: p3 chooses Teardown, and Recompute is passed over. -/
theorem invocationTearsDown : Obligations.InvocationTearsDown := by
  unfold Obligations.InvocationTearsDown
  intro s h hq ha hp
  obtain ⟨l, hl, he⟩ := leads_perEdge_teardown (s := s.folded.handling (s.handling .clear).foldedLocals) h.wf ha hp
  exact step_irq_qualifying h hq (folded_continues s).tornDown hl he

end Sys2Proof.Machine

/-!
PROOFS. Global commands: the getters (O32, O33), the block calls (O34), the output setters (O30), SET.SELFTEST (O31) and
EXIT (O37). A getter is one micro-step, and no query reads the position of the command; a setter or EXIT leads, wherever
its list stands, to one update of the state.
-/

namespace Sys2Proof.Machine

/-! ## Getters (R183) -/

/-- No value that a command returns depends on its position. -/
theorem eval_position (q : Query) (s : State) (ms : List Micro) : q.eval { s with prog := ms } = q.eval s := by
  cases q <;> rfl

/-- A getter answers its value and changes nothing else. -/
theorem getter_answers {s : State} (h : s.Ready) (q : Query) : getter q s = .next (s.respond 0 (q.eval s)) :=
  command_leads (steps := []) h h.noCommand (fun _ => Leads.nil) fun _ => eval_position q s _

/-- Settles O32: each getter answers a field of the channel record. -/
theorem counterGettersMeaning : Obligations.CounterGettersMeaning := by
  unfold Obligations.CounterGettersMeaning
  intro c s
  refine ⟨encode_channel rfl rfl, encode_channel rfl rfl, encode_channel rfl rfl, encode_channel rfl rfl,
    encode_channel rfl rfl, encode_channel rfl rfl, encode_channel rfl rfl, encode_channel rfl rfl,
    encode_channel rfl rfl, encode_channel rfl rfl, fun h => ?_⟩
  exact ⟨getter_answers h (.mode c), getter_answers h (.ldc c), getter_answers h (.clc c), getter_answers h (.stc c),
    getter_answers h (.tst c), getter_answers h (.cmpA c), getter_answers h (.cmpB c), getter_answers h (.rdmode c),
    getter_answers h (.rdtout c), getter_answers h (.wrmode c)⟩

/-- Settles O33: as the counter getters, from the channel record or the device record. -/
theorem interruptAndDeviceGettersMeaning : Obligations.InterruptAndDeviceGettersMeaning := by
  unfold Obligations.InterruptAndDeviceGettersMeaning
  intro c s
  refine ⟨encode_channel rfl rfl, encode_channel rfl rfl, encode_channel rfl rfl, encode_channel rfl rfl,
    encode_channel rfl rfl, rfl, rfl, rfl, rfl, rfl, rfl, fun h => ?_⟩
  exact ⟨getter_answers h (.ien c), getter_answers h (.cmpirq c), getter_answers h (.cbirq c),
    getter_answers h (.lben c), getter_answers h (.xen c), getter_answers h .ptofs, getter_answers h .pten,
    getter_answers h .outmode, getter_answers h .outset, getter_answers h .selftest, getter_answers h .irqcnt⟩

/-! ## Block calls (R203, R204) -/

/-- Settles O34: the check of a block call always fails. -/
theorem blockCallsUnsupported : Obligations.BlockCallsUnsupported := by
  unfold Obligations.BlockCallsUnsupported
  intro c s
  exact ⟨encode_channel rfl rfl, encode_channel rfl rfl, fun h => ⟨command_rejected h _ _, command_rejected h _ _⟩⟩

/-! ## The output registers (R180, R181) -/

section
variable {s : State} {d : Word}

theorem leads_setOutmode (h : s.par.Wf) (d : Word) :
    Leads (setOutmodeSteps d) s
      { s with octl0 := lo16 d, outctl0 := lo16 d, octl1 := hi16 d, outctl1 := hi16 d } :=
  Leads.cons (t := { s with octl0 := lo16 d }) rfl (Leads.cons (run_write_outctl0 h)
    (Leads.cons rfl (Leads.single (run_write_outctl1 h))))

theorem leads_setOutset (h : s.par.Wf) (d : Word) :
    Leads (setOutsetSteps d) s { s with ocfg := d.truncate 16, outcfg := d.truncate 16 } :=
  Leads.cons (t := { s with ocfg := d.truncate 16 }) rfl (Leads.single (run_write_outcfg h))

end

/-- Settles O30: each mirror is stored before its register is written from it. -/
theorem outputSettersMeaning : Obligations.OutputSettersMeaning := by
  unfold Obligations.OutputSettersMeaning
  intro d s
  refine ⟨rfl, rfl, fun h hd => exec_invalid h (atMost_eq_false_iff.mpr hd), fun h => command_accepted h _,
    fun h hd => setter_performs h (upTo_iff.mpr hd) _, fun h => ?outmode, fun h hd => ?outset⟩
  case outmode =>
    exact setter_leads (ok := true) h rfl h.noCommand fun p => leads_setOutmode (s := { s with prog := p }) h.wf d
  case outset =>
    exact setter_leads h (upTo_iff.mpr hd) h.noCommand fun p => leads_setOutset (s := { s with prog := p }) h.wf d

/-! ## SET.SELFTEST (R182) -/

section
variable {s : State} {d : Word}

/-- A nonzero word in range is refused (U6). -/
theorem exec_setSelftest_refused (h : s.Accepts) (hd : d.toNat ≤ 0xFFFF) (hne : d ≠ 0) :
    exec (.setSelftest d) s = .refused .selftestNonzero :=
  if_pos ⟨h.noCommand, h.live, upTo_iff.mpr hd, hne⟩

/-- With the word 0, SET.SELFTEST is a setter as any other. -/
theorem exec_setSelftest_zero : exec (.setSelftest 0) s = setter (require (upTo 0xFFFF 0)) (setSelftestSteps 0) s :=
  if_neg fun ⟨_, _, _, hne⟩ => hne rfl

theorem run_write_selftest (h : s.par.Wf) : (Act.write .selftest .stest).run s = .cont { s with selftest := s.stest } :=
  run_write_ok h rfl

theorem leads_setSelftest_zero (h : s.par.Wf) : Leads (setSelftestSteps 0) s { s with stest := 0, selftest := 0 } :=
  Leads.cons (t := { s with stest := 0 }) rfl (Leads.single (run_write_selftest h))

end

/-- Settles O31: the range check comes before the refusal, and the word 0 passes both. -/
theorem setSelftestMeaning : Obligations.SetSelftestMeaning := by
  unfold Obligations.SetSelftestMeaning
  intro d s
  refine ⟨rfl, fun h hd => exec_invalid h (atMost_eq_false_iff.mpr hd), exec_setSelftest_refused,
    fun h => exec_setSelftest_zero.trans (setter_performs h rfl _), fun h => exec_setSelftest_zero.trans ?_⟩
  exact setter_leads h rfl h.noCommand fun p => leads_setSelftest_zero (s := { s with prog := p }) h.wf

/-! ## EXIT (R207) -/

/-- The state EXIT leaves: CTL as at power-on, every channel with its control words zero and no flag pending (R47). -/
def State.exited (s : State) : State :=
  { s.zeroCtl with
    live := false
    hw := quadOf fun c => { s.hw.get c with cntctl := 0, intctl := 0, pend := 0 } }

/-- x1 to x4 of EXIT. -/
theorem leads_exit {s : State} (h : s.par.Wf) : Leads exitSteps s s.exited :=
  Leads.cons (run_goDown s) ((leads_exitChan (by exact h) .chA).append ((leads_exitChan (by exact h) .chB).append
    ((leads_exitChan (by exact h) .chC).append ((leads_exitChan (by exact h) .chD).append
      (Leads.cons (run_clear_pend0 (by exact h)) (Leads.single (run_clear_pend1 (by exact h))))))))

theorem exec_exit {s : State} (h : s.Ready) : exec .exit s = .next (s.exited.respond 0 0) :=
  setter_leads (ok := true) h rfl h.noCommand fun p => leads_exit (s := { s with prog := p }) h.wf

/-- Nothing of CTL survives EXIT (R263). -/
theorem exited_withCtl (s t : State) : (s.withCtl t).exited = s.exited := rfl

/-- Settles O37: the existential is over the CTL that x1 leaves, which is the same whatever CTL was. -/
theorem exitQuiesces : Obligations.ExitQuiesces := by
  unfold Obligations.ExitQuiesces
  intro s
  refine ⟨rfl, fun h => command_accepted h _, fun h => ⟨s.zeroCtl, exec_exit h⟩, fun h ctl => ?forgotten⟩
  case forgotten => rw [exec_exit h, exec_exit (h.withCtl ctl), exited_withCtl]

end Sys2Proof.Machine

/-!
PROOFS. INIT: its checks (O36), its list and the state it leaves (O35). The setters of a channel come in four groups;
each replaces the record and the hardware of the channel (`State.withChan`) and leaves the other channels alone. Every
channel is configured with its interrupt silent (`State.configured`), and the enables come last.
-/

namespace Sys2Proof.Machine

/-! ## The checks (R206) -/

section
variable {p : CfgPort} {s : State}

/-- The configuration check of a channel is the range of every setter (R87, R206). -/
theorem cfgChanOk_iff {g : CfgChan} :
    cfgChanOk g = true ↔
      (g.mode.toNat ≤ 7 ∨ g.mode.toNat = 9 ∨ g.mode.toNat = 10) ∧ g.ldc.toNat ≤ 3 ∧ g.clc.toNat ≤ 3 ∧
        g.stc.toNat ≤ 2 ∧ g.tst.toNat ≤ 1 ∧ g.ien.toNat ≤ 1 ∧ g.cmpirq.toNat ≤ 5 ∧ g.cbirq.toNat ≤ 3 ∧
        g.lben.toNat ≤ 1 ∧ g.xen.toNat ≤ 1 ∧ g.rdmode.toNat ≤ 2 ∧ g.wrmode.toNat ≤ 1 := by
  simp only [cfgChanOk, Bool.and_eq_true, modeOk_iff, upTo_iff, and_assoc]

/-- The configuration check is that of every channel, and the range of the output configuration. -/
theorem cfgOk_iff : cfgOk p = true ↔ p.outSet.toNat ≤ 15 ∧ ∀ c, cfgChanOk (p.chans.get c) = true := by
  simp only [cfgOk, Bool.and_eq_true, upTo_iff]
  constructor
  · rintro ⟨⟨⟨⟨ha, hb⟩, hc⟩, hd⟩, out⟩
    exact ⟨out, fun c => by cases c <;> assumption⟩
  · rintro ⟨out, h⟩
    exact ⟨⟨⟨⟨h .chA, h .chB⟩, h .chC⟩, h .chD⟩, out⟩

/-- INIT in a block that is not live is its checks and its list. -/
theorem exec_init (hl : s.live = false) (hp : s.prog = []) :
    exec .init s = accept (initCheck s.cfg) (initSteps s.cfg ++ [(Act.ret .zero).always]) s := by
  simp only [exec, execInit, hl, hp, ne_eq, not_true_eq_false, if_false, Bool.false_eq_true]

/-- A failing check is the response, and nothing else changes (R206, R227). -/
theorem exec_init_fails {code : BitVec 4} (hl : s.live = false) (hp : s.prog = []) (hc : initCheck s.cfg = some code) :
    exec .init s = .next (s.raise code) := by
  rw [exec_init hl hp, hc]
  rfl

/-- Four checks that pass. -/
theorem initCheck_passes (ha : p.allocOk = true) (hc : cfgOk p = true) (hi : p.idOk = true)
    (hlogic : (p.logicOk || p.logicBypass) = true) : initCheck p = none := by
  obtain ho | hb := Bool.or_eq_true_iff.mp hlogic
  · simp [initCheck, ha, hc, hi, ho]
  · simp [initCheck, ha, hc, hi, hb]

end

/-- Settles O36: the configuration check is a conjunction of ranges; the first check that fails answers. -/
theorem initFailureWritesNothing : Obligations.InitFailureWritesNothing := by
  unfold Obligations.InitFailureWritesNothing
  refine ⟨fun p => cfgOk_iff.trans (and_congr_right' (forall_congr' fun c => cfgChanOk_iff)), fun s hl hp => ?_⟩
  refine ⟨fun ha => ?alloc, fun ha hc => ?config, fun ha hc hi => ?identity, fun ha hc hi ho hb => ?logic⟩ <;>
    refine exec_init_fails hl hp ?_
  case alloc => exact if_pos ha
  case config => simp [initCheck, ha, hc, invalidParameter]
  case identity => simp [initCheck, ha, hc, hi, identityMismatch]
  case logic => simp [initCheck, ha, hc, hi, ho, hb, identityMismatch]

/-! ## The micro-steps of INIT (R206) -/

/-- i3 of INIT for one channel, as the rule lists it. -/
def initChanActs (c : Chan) (g : CfgChan) : List Act :=
  [.setMode c (g.mode.truncate 4), .write (.cntctl c) (.cctl c),
    if g.ldc = 2 then .write (.cntctl c) (.cctlForce c .load) else .setLdc c (g.ldc.truncate 2),
    .write (.cntctl c) (.cctl c),
    if g.clc = 2 then .write (.cntctl c) (.cctlForce c .clr) else .setClc c (g.clc.truncate 2),
    .write (.cntctl c) (.cctl c),
    if g.stc = 1 then .write (.cntctl c) (.cctlForce c .sto) else .setStc c (g.stc.truncate 2),
    .write (.cntctl c) (.cctl c),
    .setTst c (g.tst.truncate 1), .write (.cntctl c) (.cctl c),
    .setCmpA c g.cmpA, .write (.cmpaLo c) (.const (lo16 g.cmpA)), .write (.cmpaHi c) (.const (hi16 g.cmpA)),
    .setCmpB c g.cmpB, .write (.cmpbLo c) (.const (lo16 g.cmpB)), .write (.cmpbHi c) (.const (hi16 g.cmpB)),
    .setCmpirq c (g.cmpirq.truncate 3), .write (.intctl c) (.ictl c),
    .setCbirq c (g.cbirq.truncate 2), .write (.intctl c) (.ictl c),
    .setLben c (g.lben == 1), .write (.intctl c) (.ictl c),
    .setXen c (g.xen == 1), .write (.intctl c) (.ictl c),
    .setRdmode c (g.rdmode.truncate 2), .setRdtout c g.rdtout, .setWrmode c (g.wrmode.truncate 1)]

/-- SetIen for the operand `d`, as the rule lists it (R140). -/
def enableActs (c : Chan) (d : Word) : List Act :=
  if d = 1 then [.ienOn c, .write (.intctl c) (.ictl c)]
  else [.maskOpen, .ienOff c, .pssZero c, .write (.intctl c) (.ictl c), .maskClose]

section
variable {p : CfgPort} {c : Chan} {g : CfgChan} {d : Word}

/-- A condition is one action, then the write of CNTCTL: its immediate code forces, any other is stored. -/
theorem setLoadSteps_eq (c : Chan) (d : Word) :
    setLoadSteps c d =
      [(if d = 2 then Act.write (.cntctl c) (.cctlForce c .load) else .setLdc c (d.truncate 2)).always,
        rewriteCctl c] := by
  unfold setLoadSteps
  split <;> rfl

@[inherit_doc setLoadSteps_eq] theorem setClearSteps_eq (c : Chan) (d : Word) :
    setClearSteps c d =
      [(if d = 2 then Act.write (.cntctl c) (.cctlForce c .clr) else .setClc c (d.truncate 2)).always,
        rewriteCctl c] := by
  unfold setClearSteps
  split <;> rfl

@[inherit_doc setLoadSteps_eq] theorem setStoreSteps_eq (c : Chan) (d : Word) :
    setStoreSteps c d =
      [(if d = 1 then Act.write (.cntctl c) (.cctlForce c .sto) else .setStc c (d.truncate 2)).always,
        rewriteCctl c] := by
  unfold setStoreSteps
  split <;> rfl

theorem setIrqenSteps_eq (h : d.toNat ≤ 1) : setIrqenSteps c d = (enableActs c d).map Act.always := by
  rw [setIrqenSteps, asBool_of_le_one h]
  by_cases one : d = 1
  · subst one
    rfl
  · rw [beq_false_of_ne one, enableActs, if_neg one]
    rfl

theorem initChanSteps_eq (h : cfgChanOk g = true) : initChanSteps c g = (initChanActs c g).map Act.always := by
  obtain ⟨-, -, -, -, -, -, -, -, hlben, hxen, -, -⟩ := cfgChanOk_iff.mp h
  rw [initChanSteps, setLoadSteps_eq, setClearSteps_eq, setStoreSteps_eq, setLbirqSteps, setXirqSteps,
    asBool_of_le_one hlben, asBool_of_le_one hxen]
  rfl

/-- With every operand in range, the list of INIT is the one R206 writes out. -/
theorem initSteps_eq_acts (h : ∀ c, cfgChanOk (p.chans.get c) = true) :
    initSteps p ++ [(Act.ret .zero).always] =
      ([Act.zeroCtl, .write .selftest (.const 0)] ++
        (Chan.all.flatMap fun c => initChanActs c (p.chans.get c)) ++
        [Act.setOctl0 (lo16 p.outMode), .write .outctl0 .octl0, .setOctl1 (hi16 p.outMode), .write .outctl1 .octl1,
          .setOcfg (p.outSet.truncate 16), .write .outcfg .ocfg] ++
        (Chan.all.flatMap fun c => enableActs c (p.chans.get c).ien) ++
        [Act.goLive, .ret .zero]).map Act.always := by
  have chan (c : Chan) := initChanSteps_eq (c := c) (h c)
  have enable (c : Chan) : setIrqenSteps c (p.chans.get c).ien = (enableActs c (p.chans.get c).ien).map Act.always := by
    obtain ⟨-, -, -, -, -, hien, -⟩ := cfgChanOk_iff.mp (h c)
    exact setIrqenSteps_eq hien
  simp only [Chan.all, List.flatMap_cons, List.flatMap_nil, List.map_append, ← chan, ← enable, initSteps,
    List.append_assoc]
  rfl

end

/-! ## One channel under INIT (R206 i3) -/

/-- `s` with the record and the hardware of one channel replaced. -/
def State.withChan (s : State) (c : Chan) (r : ChanRec) (w : HwChan) : State :=
  { s with ch := s.ch.set c r, hw := s.hw.set c w }

section
variable {s : State} {c : Chan} {r : ChanRec} {w : HwChan} {g : CfgChan} {d : Word}

theorem withChan_self (s : State) (c : Chan) : s.withChan c (s.ch.get c) (s.hw.get c) = s := by
  simp [State.withChan]

@[simp] theorem withChan_par : (s.withChan c r w).par = s.par := rfl

@[simp] theorem withChan_ch_get : (s.withChan c r w).ch.get c = r := Quad.get_set_self ..

@[simp] theorem withChan_modRec (f : ChanRec → ChanRec) : (s.withChan c r w).modRec c f = s.withChan c (f r) w := by
  simp [State.withChan, State.modRec]

@[simp] theorem withChan_modHw (f : HwChan → HwChan) : (s.withChan c r w).modHw c f = s.withChan c r (f w) := by
  simp [State.withChan, State.modHw]

@[simp] theorem withChan_setCctl (f : ChanRec → ChanRec) :
    (s.withChan c r w).setCctl c f = s.withChan c (f r) { w with cntctl := cctlWord s.par.cctl (f r) } := by
  simp [State.setCctl]

@[simp] theorem withChan_setIctl (f : ChanRec → ChanRec) :
    (s.withChan c r w).setIctl c f = s.withChan c (f r) { w with intctl := ictlWord s.par.ictl (f r) } := by
  simp [State.setIctl]

/-- A field of the record, then CNTCTL. -/
theorem leads_cctlField {a : Act} (f : ChanRec → ChanRec) (h : s.par.Wf) (ha : ∀ u, a.run u = .cont (u.modRec c f))
    (hr : noImmediate (f r)) :
    Leads [a.always, rewriteCctl c] (s.withChan c r w)
      (s.withChan c (f r) { w with cntctl := cctlWord s.par.cctl (f r) }) :=
  (leads_setCctl (s := s.withChan c r w) (g := .always) h (fun _ => rfl) (ha _) (by simpa using hr)).to
    (withChan_setCctl f)

/-- A field of the record, then INTCTL. -/
theorem leads_ictlField {a : Act} (f : ChanRec → ChanRec) (h : s.par.Wf) (ha : ∀ u, a.run u = .cont (u.modRec c f)) :
    Leads [a.always, rewriteIctl c] (s.withChan c r w)
      (s.withChan c (f r) { w with intctl := ictlWord s.par.ictl (f r) }) :=
  (leads_setIctl (s := s.withChan c r w) (g := .always) h (fun _ => rfl) (ha _)).to (withChan_setIctl f)

/-- A field of the record that has no register. -/
theorem leads_recField {a : Act} (f : ChanRec → ChanRec) (ha : ∀ u, a.run u = .cont (u.modRec c f)) :
    Leads [a.always] (s.withChan c r w) (s.withChan c (f r) w) :=
  Leads.single ((ha (s.withChan c r w)).trans (congrArg Flow.cont (withChan_modRec f)))

/-- ForceNow: the record is kept, the one action is performed. -/
theorem leads_forceNow (f : ForceField) (h : s.par.Wf) (hr : noImmediate r) :
    Leads (forceSteps c f .always) (s.withChan c r w)
      (s.withChan c r { forceHw f w with cntctl := cctlWord s.par.cctl r }) :=
  (leads_force (s := s.withChan c r w) h c f .always (fun _ => rfl) (by simpa using hr)).to (by simp)

/-- SET.LOAD on the record (R102). -/
def storeLdc (d : Word) (r : ChanRec) : ChanRec := { r with ldc := if d = 2 then r.ldc else d.truncate 2 }

/-- SET.CLEAR on the record (R103). -/
def storeClc (d : Word) (r : ChanRec) : ChanRec := { r with clc := if d = 2 then r.clc else d.truncate 2 }

/-- SET.STORE on the record (R104). -/
def storeStc (d : Word) (r : ChanRec) : ChanRec := { r with stc := if d = 1 then r.stc else d.truncate 2 }

/-- SET.LOAD, with either kind of code. -/
theorem leads_loadCode (h : s.par.Wf) (hr : noImmediate r) (hd : noImmediate (storeLdc d r)) :
    Leads (setLoadSteps c d) (s.withChan c r w)
      (s.withChan c (storeLdc d r)
        { w with
          cntctl := cctlWord s.par.cctl (storeLdc d r)
          cnt := if d = 2 then compose w.preLo w.preHi else w.cnt }) := by
  by_cases now : d = 2 <;> simp only [setLoadSteps, storeLdc, now, ↓reduceIte] at hd ⊢
  · exact leads_forceNow .load h hr
  · exact leads_cctlField (fun r => { r with ldc := d.truncate 2 }) h (fun _ => rfl) hd

/-- SET.CLEAR, with either kind of code. -/
theorem leads_clearCode (h : s.par.Wf) (hr : noImmediate r) (hd : noImmediate (storeClc d r)) :
    Leads (setClearSteps c d) (s.withChan c r w)
      (s.withChan c (storeClc d r)
        { w with
          cntctl := cctlWord s.par.cctl (storeClc d r)
          cnt := if d = 2 then 0 else w.cnt }) := by
  by_cases now : d = 2 <;> simp only [setClearSteps, storeClc, now, ↓reduceIte] at hd ⊢
  · exact leads_forceNow .clr h hr
  · exact leads_cctlField (fun r => { r with clc := d.truncate 2 }) h (fun _ => rfl) hd

/-- SET.STORE, with either kind of code. -/
theorem leads_storeCode (h : s.par.Wf) (hr : noImmediate r) (hd : noImmediate (storeStc d r)) :
    Leads (setStoreSteps c d) (s.withChan c r w)
      (s.withChan c (storeStc d r)
        { w with
          cntctl := cctlWord s.par.cctl (storeStc d r)
          lat := if d = 1 then w.cnt else w.lat }) := by
  by_cases now : d = 1 <;> simp only [setStoreSteps, storeStc, now, ↓reduceIte] at hd ⊢
  · exact leads_forceNow .sto h hr
  · exact leads_cctlField (fun r => { r with stc := d.truncate 2 }) h (fun _ => rfl) hd

/-- A two-bit code in range, with 0 in place of the immediate code, is not the immediate code (R16 to R18). -/
theorem initCode_ne (v : BitVec 2) (hd : d.toNat ≤ 3) (hv : v ≠ 0) :
    (if d = v.zeroExtend 32 then 0 else d.truncate 2) ≠ v := by
  split
  · exact hv.symm
  · next ne => exact truncate_two_ne hd ne

/-- The record of a channel under INIT once its mode is set. -/
def modeRec (g : CfgChan) : ChanRec := { ChanRec.zero with mode := g.mode.truncate 4 }

/-- The record of a channel under INIT once its mode and its conditions are set. -/
def conditionRec (g : CfgChan) : ChanRec :=
  { storeStc g.stc (storeClc g.clc (storeLdc g.ldc (modeRec g))) with tst := g.tst.truncate 1 }

/-- INIT's setters of the count-control word: CNTCTL mirrors the record, and the immediate codes have acted (R206). -/
theorem leads_initConditions (h : s.par.Wf) (hg : cfgChanOk g = true) :
    Leads (setModeSteps c g.mode ++ (setLoadSteps c g.ldc ++ (setClearSteps c g.clc ++ (setStoreSteps c g.stc ++
      setTstartSteps c g.tst)))) (s.withChan c .zero w)
      (s.withChan c (conditionRec g)
        { w with
          cntctl := cctlWord s.par.cctl (conditionRec g)
          cnt := initCount g w
          lat := if g.stc = 1 then initCount g w else w.lat }) := by
  obtain ⟨-, hl, hc, hs, -⟩ := cfgChanOk_iff.mp hg
  have load : (if g.ldc = 2 then 0 else g.ldc.truncate 2 : BitVec 2) ≠ 2 := initCode_ne 2 hl (by decide)
  have clear : (if g.clc = 2 then 0 else g.clc.truncate 2 : BitVec 2) ≠ 2 := initCode_ne 2 hc (by decide)
  have store : (if g.stc = 1 then 0 else g.stc.truncate 2 : BitVec 2) ≠ 1 := initCode_ne 1 (by omega) (by decide)
  have no2 : (0 : BitVec 2) ≠ 2 := by decide
  have no1 : (0 : BitVec 2) ≠ 1 := by decide
  have mode : noImmediate (modeRec g) := ⟨no2, no2, no1⟩
  have loaded : noImmediate (storeLdc g.ldc (modeRec g)) := ⟨load, no2, no1⟩
  have cleared : noImmediate (storeClc g.clc (storeLdc g.ldc (modeRec g))) := ⟨load, clear, no1⟩
  have stored : noImmediate (storeStc g.stc (storeClc g.clc (storeLdc g.ldc (modeRec g)))) := ⟨load, clear, store⟩
  exact (leads_cctlField (fun r => { r with mode := g.mode.truncate 4 }) h (fun _ => rfl) mode).append
    ((leads_loadCode h mode loaded).append ((leads_clearCode h loaded cleared).append
      ((leads_storeCode h cleared stored).append
        (leads_cctlField (fun r => { r with tst := g.tst.truncate 1 }) h (fun _ => rfl) stored))))

/-- INIT's setters of the comparators (R206). -/
theorem leads_initComparators (h : s.par.Wf) :
    Leads (setCompaSteps c g.cmpA ++ setCompbSteps c g.cmpB) (s.withChan c r w)
      (s.withChan c { r with cmpA := g.cmpA, cmpB := g.cmpB }
        { w with
          cmpaLo := lo16 g.cmpA, cmpaHi := hi16 g.cmpA
          cmpbLo := lo16 g.cmpB, cmpbHi := hi16 g.cmpB }) :=
  ((leads_setCompa (s := s.withChan c r w) h).append (leads_setCompb (by exact h))).to (by simp)

/-- The record after INIT's setters of the interrupt-control word. -/
def irqRec (g : CfgChan) (r : ChanRec) : ChanRec :=
  { r with
    cmpirq := g.cmpirq.truncate 3, cbirq := g.cbirq.truncate 2, lben := asBool g.lben, xen := asBool g.xen }

/-- INIT's setters of the interrupt-control word (R206). -/
theorem leads_initIrq (h : s.par.Wf) :
    Leads (setCompirqSteps c g.cmpirq ++ (setCbirqSteps c g.cbirq ++ (setLbirqSteps c g.lben ++
      setXirqSteps c g.xen))) (s.withChan c r w)
      (s.withChan c (irqRec g r) { w with intctl := ictlWord s.par.ictl (irqRec g r) }) :=
  (leads_ictlField (fun r => { r with cmpirq := g.cmpirq.truncate 3 }) h fun _ => rfl).append
    ((leads_ictlField (fun r => { r with cbirq := g.cbirq.truncate 2 }) h fun _ => rfl).append
      ((leads_ictlField (fun r => { r with lben := asBool g.lben }) h fun _ => rfl).append
        (leads_ictlField (fun r => { r with xen := asBool g.xen }) h fun _ => rfl)))

/-- INIT's setters of the policies (R206). -/
theorem leads_initPolicies :
    Leads (setReadmodeSteps c g.rdmode ++ (setReadtoutSteps c g.rdtout ++ setWritemodeSteps c g.wrmode))
      (s.withChan c r w)
      (s.withChan c
        { r with rdmode := g.rdmode.truncate 2, rdtout := g.rdtout, wrmode := g.wrmode.truncate 1 } w) :=
  (leads_recField (fun r => { r with rdmode := g.rdmode.truncate 2 }) fun _ => rfl).append
    ((leads_recField (fun r => { r with rdtout := g.rdtout }) fun _ => rfl).append
      (leads_recField (fun r => { r with wrmode := g.wrmode.truncate 1 }) fun _ => rfl))

/-- The record of a channel before its interrupt enable (R206 i5). -/
def silentRec (g : CfgChan) : ChanRec := { initRec g with ien := false }

/-- The hardware of a channel before its interrupt enable (R206 i5). -/
def silentHw (p : Params) (g : CfgChan) (w : HwChan) : HwChan :=
  { initHw p g w with intctl := ictlWord p.ictl (silentRec g) }

/-- The setters of a channel in their groups. -/
theorem initChanSteps_groups (c : Chan) (g : CfgChan) :
    initChanSteps c g =
      (setModeSteps c g.mode ++ (setLoadSteps c g.ldc ++ (setClearSteps c g.clc ++ (setStoreSteps c g.stc ++
        setTstartSteps c g.tst)))) ++
      ((setCompaSteps c g.cmpA ++ setCompbSteps c g.cmpB) ++
      ((setCompirqSteps c g.cmpirq ++ (setCbirqSteps c g.cbirq ++ (setLbirqSteps c g.lben ++
        setXirqSteps c g.xen))) ++
      (setReadmodeSteps c g.rdmode ++ (setReadtoutSteps c g.rdtout ++ setWritemodeSteps c g.wrmode)))) := by
  simp only [initChanSteps, List.append_assoc]

/-- i3 of INIT for one channel in its zero state. -/
theorem leads_initChan (h : s.par.Wf) (hz : s.ch.get c = .zero) (hg : cfgChanOk g = true) :
    Leads (initChanSteps c g) s (s.withChan c (silentRec g) (silentHw s.par g (s.hw.get c))) := by
  have start : s.withChan c .zero (s.hw.get c) = s := hz ▸ withChan_self s c
  have steps : Leads (initChanSteps c g) (s.withChan c .zero (s.hw.get c))
      (s.withChan c (silentRec g) (silentHw s.par g (s.hw.get c))) := by
    rw [initChanSteps_groups]
    exact (leads_initConditions h hg).append ((leads_initComparators h).append
      ((leads_initIrq h).append leads_initPolicies))
  rwa [start] at steps

/-- i5 of INIT for one channel (R140). -/
theorem leads_initEnable (h : s.par.Wf) (hm : s.imask = false) (hr : s.ch.get c = silentRec g)
    (hw : s.hw.get c = silentHw s.par g w) :
    Leads (setIrqenSteps c g.ien) s (s.withChan c (initRec g) (initHw s.par g w)) := by
  refine (leads_setIen h hm c (asBool g.ien)).to ?_
  simp [State.setIctl, State.modRec, State.modHw, State.withChan, hr, hw, silentRec, silentHw, initRec, initHw]

end

/-! ## The whole of INIT (R206, R46) -/

/-- The block after i1 and i2 of INIT. -/
def State.zeroed (s : State) : State := { s.zeroCtl with selftest := 0 }

/-- The block after i3 and i4 of INIT: configured, with no interrupt enabled. -/
def State.configured (s : State) : State :=
  { s.zeroed with
    ch := quadOf fun c => silentRec (s.cfg.chans.get c)
    hw := quadOf fun c => silentHw s.par (s.cfg.chans.get c) (s.hw.get c)
    octl0 := lo16 s.cfg.outMode, octl1 := hi16 s.cfg.outMode
    outctl0 := lo16 s.cfg.outMode, outctl1 := hi16 s.cfg.outMode
    ocfg := s.cfg.outSet.truncate 16, outcfg := s.cfg.outSet.truncate 16 }

section
variable {s : State}

theorem leads_zeroed (h : s.par.Wf) :
    Leads [Act.zeroCtl.always, (Act.write .selftest (.const 0)).always] s s.zeroed :=
  Leads.cons (t := s.zeroCtl) rfl (Leads.single (run_write_ok (by exact h) rfl))

/-- i3, channel by channel. -/
theorem leads_initChans (h : s.par.Wf) (hg : ∀ c, cfgChanOk (s.cfg.chans.get c) = true) :
    Leads (initChanSteps .chA s.cfg.chans.a ++ (initChanSteps .chB s.cfg.chans.b ++
      (initChanSteps .chC s.cfg.chans.c ++ initChanSteps .chD s.cfg.chans.d))) s.zeroed
      { s.zeroed with ch := s.configured.ch, hw := s.configured.hw } :=
  (leads_initChan (s := s.zeroed) h rfl (hg .chA)).append ((leads_initChan (by exact h) rfl (hg .chB)).append
    ((leads_initChan (by exact h) rfl (hg .chC)).append (leads_initChan (by exact h) rfl (hg .chD))))

/-- i5, channel by channel, and i6. -/
theorem leads_initEnables (h : s.par.Wf) (hm : s.imask = false) :
    Leads (initEnableSteps s.cfg) s.configured s.initialised :=
  (leads_initEnable (s := s.configured) (w := s.hw.a) h hm rfl rfl).append
    ((leads_initEnable (w := s.hw.b) (by exact h) (by exact hm) rfl rfl).append
      ((leads_initEnable (w := s.hw.c) (by exact h) (by exact hm) rfl rfl).append
        ((leads_initEnable (w := s.hw.d) (by exact h) (by exact hm) rfl rfl).append (Leads.single (by exact rfl)))))

/-- INIT, with a configuration in range. -/
theorem leads_init (h : s.par.Wf) (hm : s.imask = false) (hg : ∀ c, cfgChanOk (s.cfg.chans.get c) = true) :
    Leads (initSteps s.cfg) s s.initialised := by
  have outputs : Leads (initOutputSteps s.cfg) { s.zeroed with ch := s.configured.ch, hw := s.configured.hw }
      s.initialised :=
    (leads_setOutmode (by exact h) _).append ((leads_setOutset (by exact h) _).append (leads_initEnables h hm))
  have whole := (leads_zeroed h).append ((leads_initChans h hg).append outputs)
  simp only [List.append_assoc] at whole
  exact whole

/-- In a quiet block INIT answers the state its list leads to, wherever the list stands. -/
theorem exec_init_leads {t : State} (hl : s.live = false) (hp : s.prog = []) (hc : initCheck s.cfg = none)
    (hh : s.hprog = []) (hs : s.script = []) (ht : t.prog = [])
    (steps : ∀ p, Leads (initSteps s.cfg) { s with prog := p } { t with prog := p }) :
    exec .init s = .next (t.respond 0 0) := by
  have placed : { t with prog := [] } = t := by rw [← ht]
  have quiet (p : List Micro) : { s with prog := p, script := [] } = { s with prog := p } := by rw [← hs]
  calc exec .init s
    _ = drive s.script { s with prog := initSteps s.cfg ++ [(Act.ret .zero).always] } := by
      rw [exec_init hl hp, hc, accept]
    _ = runQuiet { s with prog := initSteps s.cfg ++ [(Act.ret .zero).always] } := by
      rw [hs, drive, quiet]
    _ = .next ({ t with prog := [] }.respond 0 0) := (runQuiet_command (by exact hh)).trans ((steps _).ret .zero .host)
    _ = .next (t.respond 0 0) := by rw [placed]

end

/-- Settles O35: the list of INIT is the rule's, and it leads from any state to the configured one. -/
theorem initLeavesConfiguredState : Obligations.InitLeavesConfiguredState := by
  unfold Obligations.InitLeavesConfiguredState
  intro s hl hp ha hc hi ho
  obtain ⟨-, chans⟩ := cfgOk_iff.mp hc
  have passes : initCheck s.cfg = none := initCheck_passes ha hc hi ho
  refine ⟨rfl, ?performed, fun h hh hs hm => ?answered⟩
  case performed =>
    rw [Performs, exec_init hl hp, passes, initSteps_eq_acts chans]
    rfl
  case answered =>
    exact exec_init_leads (t := s.initialised) hl hp passes hh hs hp fun p =>
      leads_init (s := { s with prog := p }) h hm chans

end Sys2Proof.Machine

/-!
PROOFS. Interrupts: the request line (O46), entry to the handler (O47), a handler invocation that runs to its end before
anything else (O48), the invocation that is not the block's (O49), and the one that is while the pretrigger is inactive
(O50). A flag that survives an invocation is followed from h3 on: whatever the bitmask holds then, the flags of the
enabled channels in it are cleared at h4 and h5, and nothing after h5 touches a flag.
-/

namespace Sys2Proof.Machine

/-! ## The request line (R231) -/

/-- Settles O46: a channel that the four are searched for is one of the four. -/
theorem intReqMeaning : Obligations.IntReqMeaning := by
  unfold Obligations.IntReqMeaning
  intro s
  simp [intReq, Chan.mem_all]

/-! ## Entry (R232, R246) -/

section
variable {s : State}

/-- In a masked section, or inside an invocation, none starts. -/
theorem irqStep_shut (h : s.imask = true ∨ s.inh = true) : irqStep s = s := if_pos (Bool.or_eq_true_iff.mpr h)

/-- Where none of the two shuts the handler out, `live` decides. -/
theorem irqStep_open (hm : s.imask = false) (hi : s.inh = false) :
    irqStep s = if s.live then s.enterHandler handlerSteps else { s with hport := .notMine } := by
  rw [irqStep, hm, hi]
  rfl

end

/-- Settles O47: the cases of the request, and the list written out. -/
theorem handlerEntry : Obligations.HandlerEntry := by
  unfold Obligations.HandlerEntry
  intro s
  exact ⟨irqStep_shut, fun hm hi hl => (irqStep_open hm hi).trans (if_neg (Bool.eq_false_iff.mp hl)),
    fun hm hi hl => (irqStep_open hm hi).trans (if_pos hl), rfl⟩

/-! ## Run to completion (R65, R241) -/

/-- A micro-step of the handler takes it down its list, or leaves it where it is. -/
theorem takeMicro_irq_hprog {m : Micro} {rest : List Micro} {s t : State} (hq : s.hprog = m :: rest)
    (h : takeMicro .irq m rest s = .next t) : t.hprog <:+ s.hprog := by
  rw [hq]
  obtain ⟨u, -, rfl⟩ | ⟨u, -, rfl⟩ | ⟨-, rfl⟩ := takeMicro_cases h
  · exact List.suffix_cons m rest
  · exact List.nil_suffix
  · exact List.suffix_rfl

/-- Settles O48: only `go` moves an agent, and the agent in control is the handler. -/
theorem handlerRunsToCompletion : Obligations.HandlerRunsToCompletion := by
  unfold Obligations.HandlerRunsToCompletion
  intro s t e hc running h
  cases e with
  | go =>
    obtain ⟨m, rest, hq, hm⟩ | ⟨-, -, hq, -⟩ | ⟨hq, -⟩ := goStep_cases h
    · exact ⟨takeMicro_irq_prog hm, takeMicro_irq_hprog hq hm⟩
    · exact absurd hq running
    · exact absurd hq running
  | core e =>
    obtain rfl := Host.Outcome.next.inj h
    obtain ⟨-, -, -, hp, hq⟩ := coreStep_same e s
    exact ⟨hp, hq ▸ List.suffix_rfl⟩
  | irq =>
    obtain rfl := Host.Outcome.next.inj h
    rw [irqStep_shut (.inr (hc.inside.mpr running))]
    exact ⟨rfl, List.suffix_rfl⟩
  | timeout =>
    obtain rfl := Host.Outcome.next.inj h
    obtain e | ⟨-, -, -, hq, -⟩ := timeoutStep_cases s
    · rw [e]
      exact ⟨rfl, List.suffix_rfl⟩
    · exact absurd hq running
  | present p | pause =>
    obtain rfl := Host.Outcome.next.inj h
    exact ⟨rfl, List.suffix_rfl⟩

/-! ## The invocation that is not the block's (R236) -/

section
variable {s : State}

/-- h6 ends the invocation when the bitmask is zero. -/
theorem run_hOwn_ends (h : s.hloc.m = 0) : Act.hOwn.always.run s = .ended (s.leaveHandler .notMine) := if_pos h

theorem foldedLocals_eq_zero (h : s.par.Wf) (hq : qualifies s = false) : s.foldedLocals.m = 0 := by
  refine (packFlags_eq_zero (pend_wf h)).mpr fun c => ?_
  by_contra flagged
  exact Bool.eq_false_iff.mp hq (qualifies_iff.mpr ⟨c, flagged⟩)

end

/-- Settles O49: h1 to h5 fold no flag, and h6 finds the bitmask zero. -/
theorem invocationNotMine : Obligations.InvocationNotMine := by
  unfold Obligations.InvocationNotMine
  intro s h hq
  refine step_irq h h.noCommand ?_
  have folding := leads_folding (s := s.handling .clear) h.wf
  have own := run_hOwn_ends (s := s.folded.handling (s.handling .clear).foldedLocals) (foldedLocals_eq_zero h.wf hq)
  have ended : s.folded.hprog = [] := h.noHandler
  have outside : s.folded.inh = false := h.outside
  refine (folding .irq _).trans ((runSteps_ended own).trans ?_)
  simp only [State.handling, State.leaveHandler, State.setPosition, ← ended, ← outside]

/-! ## A qualifying invocation with the pretrigger inactive (R168 p0) -/

section
variable {s : State}

/-- While the pretrigger is neither armed nor torn down when idle, p0 returns: the per-edge update does nothing. -/
theorem leads_perEdge_inactive (ha : s.ptarmed = false) (ht : s.par.ptIdleTeardown = false)
    (hb : s.hloc.branch = .undecided) : Leads perEdgeSteps s { s with hloc := { s.hloc with edge := false } } := by
  have edge : Act.hEdge.always.run s = .cont { s with hloc := { s.hloc with edge := false } } := by
    rw [always_run, Act.run, ha, ht]
    rfl
  have reads : ∀ m ∈ [Act.hCntLo.under .edge, Act.hCntHi.under .edge, Act.hDecide.under .edge], m.guard = .edge := by
    decide
  have recompute : Leads recomputeSteps { s with hloc := { s.hloc with edge := false } } _ :=
    Leads.skip (g := .recompute) (congrArg (· == EdgeBranch.recompute) hb) recomputeSteps_guard
  have teardown : Leads teardownSteps { s with hloc := { s.hloc with edge := false } } _ :=
    Leads.skip (g := .teardown) (congrArg (· == EdgeBranch.teardown) hb) teardownSteps_guard
  exact Leads.cons edge ((Leads.skip (g := .edge) rfl reads).append (recompute.append teardown))

/-- A ready block in which nothing of the pretrigger is active: the invocation is h1 to h6 and h8 to h11. -/
theorem step_irq_inactive (h : s.Ready) (hq : qualifies s = true) (ha : s.ptarmed = false)
    (ht : s.par.ptIdleTeardown = false) : step { s with script := [.irq] } = .next (s.folded.handledFrom s) :=
  step_irq_qualifying (l := { (s.handling .clear).foldedLocals with edge := false }) h hq (folded_continues s) rfl
    (leads_perEdge_inactive (s := s.folded.handling (s.handling .clear).foldedLocals) ha ht rfl)

end

/-! ## What becomes of the flags from h3 on (R234, R235) -/

/-- h3 to h11. -/
def foldOnSteps : List Micro :=
  [Act.hFold.always, (Act.write .pend0 .maskLo).always, (Act.write .pend1 .maskHi).always] ++
    (Act.hOwn.always :: (perEdgeSteps ++ finishSteps))

theorem handlerSteps_eq : handlerSteps = Act.hPend0.always :: Act.hPend1.always :: foldOnSteps := rfl

section
variable {s t : State} {f : Chan → BitVec 5}

theorem quadOf_get {α : Type} (f : Chan → α) (c : Chan) : (quadOf f).get c = f c := by cases c <;> rfl

/-- `t` has the command and the flags of `s`. -/
structure KeepsFlags (s t : State) : Prop where
  prog : t.prog = s.prog
  pend : ∀ c, (t.hw.get c).pend = (s.hw.get c).pend

theorem KeepsFlags.of_eq (hp : t.prog = s.prog) (hw : t.hw = s.hw) : KeepsFlags s t := ⟨hp, fun c => by rw [hw]⟩

theorem KeepsFlags.trans {u : State} (h : KeepsFlags s t) (k : KeepsFlags t u) : KeepsFlags s u :=
  ⟨k.prog.trans h.prog, fun c => (k.pend c).trans (h.pend c)⟩

theorem KeepsFlags.modHw (h : KeepsFlags s t) (c : Chan) {g : HwChan → HwChan} (hg : ∀ x, (g x).pend = x.pend) :
    KeepsFlags s (t.modHw c g) := by
  refine ⟨h.prog, fun d => ?_⟩
  rw [← h.pend d, modHw_get]
  split
  · exact hg _
  · rfl

theorem slavePreloads_keepsFlags (s : State) (x y : Word) : KeepsFlags s (s.slavePreloads x y) := by
  have first : KeepsFlags s (s.modHw .chB fun w => { w with preLo := lo16 x, preHi := hi16 x }) :=
    (KeepsFlags.of_eq rfl rfl).modHw .chB fun _ => rfl
  exact first.modHw .chC fun _ => rfl

theorem setIctl_keepsFlags (s : State) (c : Chan) (g : ChanRec → ChanRec) : KeepsFlags s (s.setIctl c g) := by
  have stored : KeepsFlags s (s.modRec c g) := .of_eq rfl rfl
  exact stored.modHw c fun _ => rfl

theorem KeepsFlags.disarmed (h : KeepsFlags s t) : KeepsFlags s { t with ptarmed := false } := ⟨h.prog, h.pend⟩

theorem tornDown_keepsFlags (s : State) : KeepsFlags s s.tornDown :=
  ((slavePreloads_keepsFlags s ptDummy ptDummy).trans
    (setIctl_keepsFlags _ .chA fun r => { r with xen := false, ien := false, pss := 0 })).disarmed

theorem signalAll_keepsFlags (s : State) : KeepsFlags s (signalAll s) := by
  refine List.foldlRecOn Chan.all signalChan (KeepsFlags.of_eq rfl rfl) fun t h c _ => h.trans ?_
  obtain e | e := signalChan_cases t c <;> rw [e] <;> exact .of_eq rfl rfl

theorem notifyAll_keepsFlags (s : State) : KeepsFlags s (notifyAll s) := by
  obtain ⟨es, e⟩ := notifyAll_cases s
  rw [e]
  exact .of_eq rfl rfl

/-- The per-edge update touches no flag, whether it returns at p0 or takes one of its branches (R168 to R170). -/
theorem leads_perEdge (h : s.par.Wf) (hb : s.hloc.branch = .undecided) :
    ∃ t, Leads perEdgeSteps s t ∧ KeepsFlags s t := by
  by_cases active : s.ptarmed = true ∨ s.par.ptIdleTeardown = true
  · cases request : s.pten with
    | true =>
      obtain ⟨l, -, leads⟩ := leads_perEdge_recompute h active request
      exact ⟨_, leads, (slavePreloads_keepsFlags s _ _).trans (.of_eq rfl rfl)⟩
    | false =>
      obtain ⟨l, -, leads⟩ := leads_perEdge_teardown h active request
      exact ⟨_, leads, (tornDown_keepsFlags s).trans (.of_eq rfl rfl)⟩
  · obtain ⟨unarmed, idle⟩ := not_or.mp active
    exact ⟨_, leads_perEdge_inactive (Bool.eq_false_iff.mpr unarmed) (Bool.eq_false_iff.mpr idle) hb, .of_eq rfl rfl⟩

/-- h8 to h11 end the invocation and touch no flag. -/
theorem runSteps_finish_keepsFlags (s : State) : ∃ t, runSteps .irq finishSteps s = .next t ∧ KeepsFlags s t := by
  have signals := signalAll_keepsFlags { s with irqcnt := s.irqcnt + 1 }
  have notifies := notifyAll_keepsFlags (signalAll { s with irqcnt := s.irqcnt + 1 })
  refine ⟨((notifyAll (signalAll { s with irqcnt := s.irqcnt + 1 })).leaveHandler .mine).setPosition .irq [], ?_, ?_⟩
  · rw [finishSteps, runSteps_cont rfl, runSteps_cont rfl, runSteps_cont rfl, runSteps_ended rfl]
  · exact ⟨notifies.prog.trans signals.prog, fun c => (notifies.pend c).trans (signals.pend c)⟩

/-- h6 to h11 end the invocation, with NOT_MINE or with MINE, and touch no flag. -/
theorem runSteps_own_keepsFlags (h : s.par.Wf) (hb : s.hloc.branch = .undecided) :
    ∃ t, runSteps .irq (Act.hOwn.always :: (perEdgeSteps ++ finishSteps)) s = .next t ∧ KeepsFlags s t := by
  by_cases zero : s.hloc.m = 0
  · exact ⟨_, runSteps_ended (run_hOwn_ends zero), .of_eq rfl rfl⟩
  · obtain ⟨u, edge, kept⟩ := leads_perEdge h hb
    obtain ⟨t, finish, kept'⟩ := runSteps_finish_keepsFlags u
    have own : Act.hOwn.always.run s = .cont s := run_hOwn zero
    exact ⟨t, (runSteps_cont own).trans ((edge .irq _).trans finish), kept.trans kept'⟩

/-- `s` after h3 to h5, when the bitmask was the flags `f` of the four channels. -/
def State.foldedBy (s : State) (f : Chan → BitVec 5) : State :=
  { s with
    ch := quadOf fun c => foldRec (f c) (s.ch.get c)
    hw := quadOf fun c => { s.hw.get c with pend := (s.hw.get c).pend &&& ~~~(s.enabledFlags f c) }
    hloc := { s.hloc with m := packFlags s.par.pend (s.enabledFlags f) } }

theorem leads_foldedBy (h : s.par.Wf) (hm : s.hloc.m = packFlags s.par.pend f) :
    Leads [Act.hFold.always, (Act.write .pend0 .maskLo).always, (Act.write .pend1 .maskHi).always] s
      (s.foldedBy f) := by
  have folds : Act.hFold.always.run s = .cont (foldAll s) := rfl
  rw [foldAll_packed h hm] at folds
  refine (Leads.cons folds (leads_written (by exact h))).to ?_
  simp only [flagsOf_packFlags (pend_wf h), State.foldedBy]

/-- h3 to h11: the flags of enabled channels in the bitmask are cleared, and every other flag is as it was, whether it
was there when its register was read or not. -/
theorem runSteps_foldOn (h : s.par.Wf) (hb : s.hloc.branch = .undecided) (hm : s.hloc.m = packFlags s.par.pend f) :
    ∃ t, runSteps .irq foldOnSteps s = .next t ∧ t.prog = s.prog ∧
      ∀ c, (t.hw.get c).pend = (s.hw.get c).pend &&& ~~~(s.enabledFlags f c) := by
  obtain ⟨t, own, kept⟩ := runSteps_own_keepsFlags (s := s.foldedBy f) h hb
  refine ⟨t, (leads_foldedBy h hm .irq _).trans own, kept.prog, fun c => ?_⟩
  rw [kept.pend, State.foldedBy, quadOf_get]

/-! ## An invocation under a schedule (R65) -/

/-- `s` at the place `ms` of an invocation, with the hardware `q`, the locals `l`, `n` draws and the schedule `es`. -/
def State.within (s : State) (q : Quad HwChan) (l : HLocals) (n : Nat) (ms : List Micro) (es : List Event) : State :=
  { s with hw := q, inh := true, hloc := l, draws := n, hprog := ms, script := es }

/-- In a ready block an invocation asked for is entered, and the schedule goes on. -/
theorem step_irq_schedule (h : s.Ready) (es : List Event) :
    step { s with script := .irq :: es } = drive es (s.within s.hw .clear s.draws handlerSteps (.irq :: es)) := by
  have idle : { s with script := .irq :: es }.idle = true := by simp [State.idle, h.noCommand, h.noHandler]
  have entered := (irqStep_open (s := { s with script := .irq :: es }) h.unmasked h.outside).trans (if_pos h.live)
  exact (if_pos idle).trans (congrArg (drive es) entered)

/-- While the handler has a position the schedule goes on with its next entry, if that is not a pause. -/
theorem drive_handling {e : Event} {es : List Event} (hq : s.hprog ≠ []) (he : e ≠ .pause)
    (ht : eventStep e s = .next t) : drive (e :: es) s = drive es t := by
  have busy : ¬ s.idle = true := by simp [State.idle, hq]
  rw [drive, if_neg busy, if_neg he, ht]

/-- The handler takes its next micro-step. -/
theorem drive_go {m : Micro} {rest : List Micro} {es : List Event} (hq : s.hprog = m :: rest) (hm : m.run s = .cont t) :
    drive (.go :: es) s = drive es { t with hprog := rest } := by
  refine drive_handling (by simp [hq]) (by simp) ?_
  rw [eventStep, goStep, hq]
  exact takeMicro_of_cont hm

/-- With the schedule used up an invocation runs to its end, and with no command in progress the step ends with it. -/
theorem drive_quiet {q : Quad HwChan} {l : HLocals} {n : Nat} {ms : List Micro} {es : List Event}
    (hr : runSteps .irq ms (s.within q l n ms []) = .next t) (hp : t.prog = []) :
    drive [] (s.within q l n ms es) = .next t := by
  calc drive [] (s.within q l n ms es)
    _ = runQuiet (s.within q l n ms []) := rfl
    _ = .next t := by
      rw [runQuiet, show (s.within q l n ms []).hprog = ms from rfl, hr]
      simp only [hp, runSteps_nil]
      rw [setPosition_host_self hp]

/-- The handler's locals after h1. -/
def State.firstLocals (s : State) : HLocals := { HLocals.clear with p0 := (readPend .chA .chB s).1 }

section
variable {q : Quad HwChan} {ms : List Micro} {es : List Event}

/-- h1 reads the flags of A and B. -/
theorem run_hPend0_within (h : s.par.Wf) :
    Act.hPend0.always.run (s.within s.hw .clear s.draws ms es) =
      .cont (s.within s.hw s.firstLocals (s.draws + 1) ms es) :=
  run_hPend0 (by exact h)

/-- In a ready block an invocation that has taken h1. -/
theorem step_irq_go (h : s.Ready) (es : List Event) :
    step { s with script := .irq :: .go :: es } =
      drive es (s.within s.hw s.firstLocals (s.draws + 1) (Act.hPend1.always :: foldOnSteps) (.irq :: .go :: es)) :=
  (step_irq_schedule h _).trans (drive_go (m := Act.hPend0.always) handlerSteps_eq (run_hPend0_within h.wf))

/-- h2 reads the flags of C and D; what has become of A and B since h1 does not reach the bitmask. -/
theorem run_hPend1_within (h : s.par.Wf) (hc : (q.get .chC).pend = (s.hw.get .chC).pend)
    (hd : (q.get .chD).pend = (s.hw.get .chD).pend) :
    Act.hPend1.always.run (s.within q s.firstLocals (s.draws + 1) ms es) =
      .cont (s.within q (s.handling .clear).polledLocals (s.draws + 2) ms es) := by
  have mask := handler_mask_eq s.par.pend (s.hw.get .chA).pend (s.hw.get .chB).pend (s.hw.get .chC).pend
    (s.hw.get .chD).pend (Config.pendReserved s.draws) (Config.pendReserved (s.draws + 1))
  refine (run_hPend1 (by exact h)).trans ?_
  simp only [State.within, State.firstLocals, State.polledLocals, State.handling, packFlags, readPend, hc, hd, mask]

/-- From h3 on, an invocation that read the flags of `s` ends with every other flag as the hardware has it. -/
theorem runSteps_foldOn_within (h : s.Ready) (q : Quad HwChan) (n : Nat) (ms : List Micro) :
    ∃ t, runSteps .irq foldOnSteps (s.within q (s.handling .clear).polledLocals n ms []) = .next t ∧ t.prog = [] ∧
      ∀ c, (t.hw.get c).pend = (q.get c).pend &&& ~~~(fired s c) := by
  obtain ⟨t, run, prog, pend⟩ := runSteps_foldOn (s := s.within q (s.handling .clear).polledLocals n ms [])
    (f := fun c => (s.hw.get c).pend) h.wf rfl rfl
  exact ⟨t, run, prog.trans h.noCommand, pend⟩

end

/-! ### Flags raised between two micro-steps (R235) -/

/-- The hardware of `s` with the flags `b` of channel `c` raised (R39). -/
def State.raisedHw (s : State) (c : Chan) (b : BitVec 5) : Quad HwChan := (coreStep (.setPending c b) s).hw

theorem raisedHw_pend (s : State) (c d : Chan) (b : BitVec 5) :
    ((s.raisedHw c b).get d).pend = if d = c then (s.hw.get d).pend ||| b else (s.hw.get d).pend := by
  rw [State.raisedHw, coreStep, modHw_get]
  split <;> rfl

/-- The CORE raises flags while the handler has a position. -/
theorem drive_raise {l : HLocals} {n : Nat} {ms : List Micro} {es fs : List Event} (hms : ms ≠ []) (c : Chan)
    (b : BitVec 5) :
    drive (.core (.setPending c b) :: es) (s.within s.hw l n ms fs) = drive es (s.within (s.raisedHw c b) l n ms fs) :=
  drive_handling hms (by simp) rfl

/-- Flags of A or B raised between h1 and h2. -/
theorem step_raise_after_first {c : Chan} (h : s.Ready) (hc : c = .chA ∨ c = .chB) (b : BitVec 5) :
    ∃ t, step { s with script := [.irq, .go, .core (.setPending c b)] } = .next t ∧
      ∀ d, (t.hw.get d).pend = ((s.raisedHw c b).get d).pend &&& ~~~(fired s d) := by
  have same (d : Chan) (hd : d ≠ c) : ((s.raisedHw c b).get d).pend = (s.hw.get d).pend := by
    rw [raisedHw_pend, if_neg hd]
  have second := run_hPend1_within (s := s) (ms := Act.hPend1.always :: foldOnSteps) (es := []) h.wf
    (same .chC (by rintro rfl; simp at hc)) (same .chD (by rintro rfl; simp at hc))
  obtain ⟨t, run, idle, pend⟩ :=
    runSteps_foldOn_within h (s.raisedHw c b) (s.draws + 2) (Act.hPend1.always :: foldOnSteps)
  refine ⟨t, ?_, pend⟩
  refine (step_irq_go h _).trans ?_
  exact (drive_raise (List.cons_ne_nil _ _) c b).trans (drive_quiet ((runSteps_cont second).trans run) idle)

/-- Flags of any channel raised between h2 and h3. -/
theorem step_raise_after_second (h : s.Ready) (c : Chan) (b : BitVec 5) :
    ∃ t, step { s with script := [.irq, .go, .go, .core (.setPending c b)] } = .next t ∧
      ∀ d, (t.hw.get d).pend = ((s.raisedHw c b).get d).pend &&& ~~~(fired s d) := by
  obtain ⟨t, run, idle, pend⟩ := runSteps_foldOn_within h (s.raisedHw c b) (s.draws + 2) foldOnSteps
  refine ⟨t, ?_, pend⟩
  refine (step_irq_go h _).trans ?_
  refine (drive_go (m := Act.hPend1.always) (rest := foldOnSteps) rfl (run_hPend1_within h.wf rfl rfl)).trans ?_
  exact (drive_raise (List.cons_ne_nil _ _) c b).trans (drive_quiet run idle)

end

/-- Settles O50: p0 returns, and the flags raised after their register was read are not in the bitmask. -/
theorem invocationMine : Obligations.InvocationMine := by
  unfold Obligations.InvocationMine
  refine ⟨fun s => step_irq_inactive, fun s c b es h hes => ?_⟩
  simp only [← raisedHw_pend]
  obtain ⟨rfl, hc⟩ | rfl := hes
  · exact step_raise_after_first h hc b
  · exact step_raise_after_second h c b

end Sys2Proof.Machine
